-- ==== Sys2Proof/Config.lean ====
section
/-! DEFINITION. The parameters of spec/00_scope.md R6, each in one place, and the free values of the model: constants without a
body, of which nothing can be proved but that they are constant. The counts and widths are abbreviations, for types are made of
them. -/

namespace Sys2Proof.Config

/-- `N_ROWS` (R6): keypad rows, also the display digits that share the select index. -/
abbrev nRows : Nat := 4

/-- `N_COLS` (R6). -/
abbrev nCols : Nat := 4

/-- `N_DIGITS` (R6). -/
abbrev nDigits : Nat := 4

/-- `N_PHASES` (R6): values of `phase`. -/
abbrev nPhases : Nat := nRows * nCols

/-- `PHASE_W` (R6), the bits that `N_PHASES` values take: width of `phase` and `key_code`. -/
abbrev phaseW : Nat := 4

/-- `CNT_W` (R6, D6): width of `det_cnt` and `rel_cnt`. -/
abbrev cntW : Nat := 6

/-- `GLYPH_W` (R6, D11): width of one display slot. -/
abbrev glyphW : Nat := 5

/-- `SEG_W` (R6): width of `seg`. -/
abbrev segW : Nat := 8

/-- `DETECT_RELOAD` (R6, D6): the value a first observation loads into `det_cnt`. -/
def detectReload : BitVec (delta% cntW) := 32

/-- `RELEASE_RELOAD` (R6, D7): the value loaded into `rel_cnt`. -/
def releaseReload : BitVec (delta% cntW) := 32

/-- `GLYPH_BLANK` (R6, R80): the glyph code of the blank. -/
def glyphBlank : BitVec (delta% glyphW) := 16

/-- `SEG_BLANK` (R6, R131): all segments off. -/
def segBlank : BitVec (delta% segW) := 0x00

/-- `SEG_TABLE` (R132, D13, U1): 16 constant patterns, an OPEN parameter. It has no body, so a statement that names it
holds for every table. DESIGN CHOICE (log entry 3), safe. -/
opaque segTable : BitVec 4 → BitVec (delta% segW)

/-- The operation word the outside world presents at a step for which `State.inputs` lists none, the argument being the
number of such words so far (R5, R32, R250, U7: the pins are under no law). It has no body. DESIGN CHOICE (log entry 1),
safe. -/
opaque freeOpw : Nat → BitVec 16

/-- `TICK_PERIOD` in nanoseconds (R6, R244): OPEN, in no next-state rule (log entry 7). -/
opaque tickPeriod : Nat

/-- `T_SETTLE` in nanoseconds (R6, R240): OPEN, in no next-state rule (log entry 7). -/
opaque tSettle : Nat

/-- `F_CLK` in hertz (R6): OPEN, in no next-state rule (log entry 7). -/
opaque fClk : Nat

/-- The default font of R132, marked there as general knowledge. PRESUMED (log entry 4), unsafe: the machine never reads
it; tests on numbers pass it to `segLookup` in place of `segTable`. -/
def segTableDefault (g : BitVec 4) : BitVec (delta% segW) :=
  match g.toNat with
  | 0 => 0x3F | 1 => 0x06 | 2 => 0x5B | 3 => 0x4F
  | 4 => 0x66 | 5 => 0x6D | 6 => 0x7D | 7 => 0x07
  | 8 => 0x7F | 9 => 0x6F | 10 => 0x77 | 11 => 0x7C
  | 12 => 0x39 | 13 => 0x5E | 14 => 0x79 | _ => 0x71

end Sys2Proof.Config
end

