-- ==== Sys2Proof/Word.lean ====
section
/-! DEFINITION. The types of the values the block handles, their widths taken from the parameters (spec/10_state.md R20, R42;
spec/30_encoding.md R70, R85). All are unsigned, bit 0 least significant (R8).
The type of a width holds the parameter's value (`delta%` puts a constant's value in its place), for arithmetic to see a numeral. -/

namespace Sys2Proof

/-- The 16-bit operation word: the input pins of one step (R70). -/
abbrev Opw := BitVec 16

/-- A position of the scan, which is also a key code: `4 * row + column` (R21, R79). -/
abbrev Position := BitVec (delta% Config.phaseW)

/-- The column lines of the keypad (R85). -/
abbrev Lines := BitVec (delta% Config.nCols)

/-- The row select lines (R29, R85). -/
abbrev RowSelects := BitVec (delta% Config.nRows)

/-- The digit select lines (R29, R85). -/
abbrev DigitSelects := BitVec (delta% Config.nDigits)

/-- A row number, a column number, or a display slot number: 2 bits of `phase` or of the operation word (R78, R50, R70). -/
abbrev Index := BitVec 2

/-- A debounce counter (R23, R24). -/
abbrev Count := BitVec (delta% Config.cntW)

/-- The content of one display slot: 0..15 a hexadecimal digit, 16 blank, 17..31 shown as blank (R80). -/
abbrev Glyph := BitVec (delta% Config.glyphW)

/-- A segment pattern (R82). -/
abbrev Pattern := BitVec (delta% Config.segW)

end Sys2Proof
end

