-- ==== Sys2Proof/Syntax.lean ====
section
/-! DEFINITION. The operations of the block, one constructor per row of spec/opcode_table.json. One operation word may hold
several of them (spec/30_encoding.md R71): a word decodes to a list of operations. -/

namespace Sys2Proof

inductive Instr where
  /-- RESET (R72, R105). -/
  | reset
  /-- TICK, with the four column lines of the step (R73, R100). -/
  | tick (colN : Lines)
  /-- CLRP: the host clears `push_confirmed` (R74, R191). -/
  | clrp
  /-- CLRR: the host clears `release_confirmed` (R75, R192). -/
  | clrr
  /-- WRD: the host writes glyph code `g` to display slot `i` (R76, R193). -/
  | wrd (i : Index) (g : Glyph)
  /-- NOP: a word with no strobe set (R77, R104). -/
  | nop
  deriving DecidableEq, Repr

end Sys2Proof
end

