-- ==== Sys2Proof/WellFormed.lean ====
section
/-! DEFINITION. Which lists of operations one operation word can carry (spec/30_encoding.md R71, spec/40_tick_scheduler.md
R106). A single operation has no ill-formed operand: every value of every field is legal (R84), and the types admit no other. -/

namespace Sys2Proof

/-- The place of a strobed operation in the order of R106; RESET and NOP have none, for each fills its word alone. -/
def strobePlace (i : Instr) : Option Nat :=
  match i with
  | .clrp => some 0
  | .clrr => some 1
  | .wrd _ _ => some 2
  | .tick _ => some 3
  | .reset => none
  | .nop => none

/-- Check 1: a word is never without an operation (NOP is one, R71). -/
def someOperation (ops : List Instr) : Bool := !ops.isEmpty

/-- Check 2: RESET and NOP share their word with nothing (R71). -/
def aloneWhereNeeded (ops : List Instr) : Bool :=
  ops.length ≤ 1 || ops.all (fun i => (strobePlace i).isSome)

/-- Check 3: the strobed operations stand in the order of R106, each at most once. -/
def inStepOrder (ops : List Instr) : Bool :=
  match ops with
  | [] => true
  | i :: rest => rest.all (fun j => (strobePlace i).getD 0 < (strobePlace j).getD 0) && inStepOrder rest

/-- The lists of operations that one operation word carries. -/
def wellFormedOps (ops : List Instr) : Bool :=
  someOperation ops && aloneWhereNeeded ops && inStepOrder ops

/-- One operation alone in its word. -/
def wellFormed (i : Instr) : Bool := wellFormedOps [i]

end Sys2Proof
end

