-- ==== Sys2Proof/Decode.lean ====
section
/-! DEFINITION. The operation word (spec/30_encoding.md R70 to R77, R84): its fields, the decoder, and the encoder of R86. The
word is not made of smaller units and has no byte order (spec/20_memory.md R51). -/

namespace Sys2Proof

/-! ### The fields of R70 -/

/-- Bit 15. -/
def fieldRst (w : Opw) : Bool := w.getLsbD 15
/-- Bit 14. -/
def fieldTick (w : Opw) : Bool := w.getLsbD 14
/-- Bits 13:10, bit 10 being `col_n[0]`. -/
def fieldColN (w : Opw) : Lines := w.extractLsb' 10 (delta% Config.nCols)
/-- Bit 9. -/
def fieldClrPush (w : Opw) : Bool := w.getLsbD 9
/-- Bit 8. -/
def fieldClrRelease (w : Opw) : Bool := w.getLsbD 8
/-- Bit 7. -/
def fieldDispWe (w : Opw) : Bool := w.getLsbD 7
/-- Bits 6:5. -/
def fieldDispIdx (w : Opw) : Index := w.extractLsb' 5 2
/-- Bits 4:0. -/
def fieldDispData (w : Opw) : Glyph := w.extractLsb' 0 (delta% Config.glyphW)

/-! ### The decoder -/

/-- The operations the four strobes below `rst` select, in the order of R106: each slot on its own (R71). -/
def strobedOps (w : Opw) : List Instr :=
  (if fieldClrPush w then [.clrp] else []) ++
  (if fieldClrRelease w then [.clrr] else []) ++
  (if fieldDispWe w then [.wrd (fieldDispIdx w) (fieldDispData w)] else []) ++
  (if fieldTick w then [.tick (fieldColN w)] else [])

/-- R71: bit 15 makes the step RESET whatever the other bits are; else each strobe selects its operation; a word with no
strobe is NOP. Every word is legal (R84), so this decoder refuses none. -/
def decodeWord (w : Opw) : List Instr :=
  if fieldRst w then [.reset]
  else if (strobedOps w).isEmpty then [.nop]
  else strobedOps w

/-- Why a bit string is no operation word. -/
inductive DecodeRefusal where
  /-- The string is longer than 16 bits: there is one length of word (R70). Safe: no such word reaches the pins. -/
  | longerThanOneWord
  deriving DecidableEq, Repr

/-- The decoder on any string of bits, `nbits` bits whose value is `w`: bits above `nbits` are 0. -/
def decodeBits (nbits w : Nat) : Except DecodeRefusal (List Instr) :=
  if nbits ≤ 16 then .ok (decodeWord (BitVec.ofNat 16 (w % 2 ^ nbits)))
  else .error .longerThanOneWord

/-- The operation of a word of the opcode table. Of a word that carries several it is the one that takes effect first
(log entry 6). -/
def decodeTableWord (nbits w : Nat) : Option Instr :=
  match decodeBits nbits w with
  | .ok ops => ops.head?
  | .error _ => none

/-! ### The encoder -/

/-- The word made of the eight fields of R70. -/
def assemble (rst tick : Bool) (colN : Lines) (clrPush clrRelease dispWe : Bool) (i : Index) (g : Glyph) : Opw :=
  BitVec.ofBool rst ++ BitVec.ofBool tick ++ colN ++ BitVec.ofBool clrPush ++ BitVec.ofBool clrRelease ++
    BitVec.ofBool dispWe ++ i ++ g

/-- The word R86 writes for one operation; a word without TICK has `col_n` = 1111 by convention, RESET is 0x8000. -/
def encode (i : Instr) : Opw :=
  match i with
  | .reset => 0x8000
  | .tick c => assemble false true c false false false 0 0
  | .clrp => assemble false false 0xF true false false 0 0
  | .clrr => assemble false false 0xF false true false 0 0
  | .wrd i g => assemble false false 0xF false false true i g
  | .nop => assemble false false 0xF false false false 0 0

/-- The column lines of the TICK of a word, if it has one. -/
def tickLines : List Instr → Option Lines
  | [] => none
  | .tick c :: _ => some c
  | _ :: rest => tickLines rest

/-- The slot and the glyph of the WRD of a word, if it has one. -/
def slotWrite : List Instr → Option (Index × Glyph)
  | [] => none
  | .wrd i g :: _ => some (i, g)
  | _ :: rest => slotWrite rest

/-- R86's `a | b`: the operations of one word put together, the `col_n` field taken from the TICK if there is one. -/
def encodeOps (ops : List Instr) : Opw :=
  if ops.contains .reset then 0x8000
  else
    assemble false (tickLines ops).isSome ((tickLines ops).getD 0xF) (ops.contains .clrp) (ops.contains .clrr)
      (slotWrite ops).isSome ((slotWrite ops).getD (0, 0)).1 ((slotWrite ops).getD (0, 0)).2

end Sys2Proof
end

