-- ==== Sys2Proof/Machine/State.lean ====
section
/-! DEFINITION. The state of the block (spec/10_state.md R20 to R31), the words the outside world presents to it, and the
state after reset (R39). -/

namespace Sys2Proof.Machine

/-- The state of the debounce machine (R22). Three values: the encoding 0b11 cannot be written down (R83). -/
inductive Fsm where
  | idle
  | detecting
  | pushed
  deriving DecidableEq, Repr

/-- The display buffer, DISP0 to DISP3 (R28, R34, R50). -/
abbrev DispBuf := Vector Glyph (delta% Config.nDigits)

/-- The registers of R20, and two fields of the model's own: the words presented at the coming steps and the number of free
words drawn (log entries 1 and 2). -/
structure State where
  /-- ScanPhase, the sequencer (R21). -/
  phase : Position
  /-- The debounce machine (R22). -/
  fsm : Fsm
  /-- The detect counter (R23). -/
  detCnt : Count
  /-- The release counter (R24). -/
  relCnt : Count
  /-- The candidate or confirmed key (R25). -/
  keyCode : Position
  /-- Sticky flag (R26). -/
  pushConfirmed : Bool
  /-- Sticky flag (R26). -/
  releaseConfirmed : Bool
  /-- The display buffer (R28). -/
  dispBuf : DispBuf
  /-- Output register: keypad row select (R29). -/
  rowSel : RowSelects
  /-- Output register: display digit select (R29). -/
  digSel : DigitSelects
  /-- Output register: segment pattern (R30). -/
  seg : Pattern
  /-- Output register: buzzer (R31). -/
  buzzer : Bool
  /-- The operation words on the pins at the coming steps, the next one first. The model's own field (log entry 1). -/
  inputs : List Opw
  /-- How many free operation words have been drawn. The model's own field (log entry 2). -/
  draws : Nat
  deriving DecidableEq, Repr

/-- No operation, in any state, faults (R210): there is no fault to name. -/
inductive Fault where
  deriving DecidableEq, Repr

/-- No operation is refused (R210). -/
inductive Refusal where
  /-- An arm of `exec` without a meaning; no arm raises it, since all six operations have theirs. Safe. -/
  | notModelled (mnemonic : String)
  deriving DecidableEq, Repr

/-- The state after reset (R39). The spec gives the value of every register; `inputs` and `draws` are the model's own
(DESIGN CHOICE, log entries 1 and 2). -/
def State.reset : State where
  phase := 0
  fsm := .idle
  detCnt := 0
  relCnt := 0
  keyCode := 0
  pushConfirmed := false
  releaseConfirmed := false
  dispBuf := Vector.replicate (delta% Config.nDigits) Config.glyphBlank
  rowSel := 0b0001
  digSel := 0b0001
  seg := Config.segBlank
  buzzer := false
  inputs := []
  draws := 0

end Sys2Proof.Machine
end

