-- ==== Sys2Proof/Machine/Flags.lean ====
section
/-! DEFINITION. The two sticky flags (spec/10_state.md R26): set by their events, cleared by the host. -/

namespace Sys2Proof.Machine

/-- The flag of a push event; it stays 1 if it was 1 (R156, R236). -/
def setPush (s : State) : State := { s with pushConfirmed := true }

/-- The flag of a release event; it stays 1 if it was 1 (R160, R236). -/
def setRelease (s : State) : State := { s with releaseConfirmed := true }

/-- What CLRP does (R191). -/
def clearPush (s : State) : State := { s with pushConfirmed := false }

/-- What CLRR does (R192). -/
def clearRelease (s : State) : State := { s with releaseConfirmed := false }

end Sys2Proof.Machine
end

