-- ==== Sys2Proof/Machine/Operands.lean ====
section
/-! DEFINITION. What the operations compute from their operands: the row and the column of a phase (spec/30_encoding.md R78),
the one-hot selects (R81), the sample (spec/43 R150), the display slots (spec/20_memory.md R50), the segment look-up (spec/42
R130), the encoding of `fsm` (R83). -/

namespace Sys2Proof.Machine

/-- Row and digit of a phase: `p div 4` (R78). -/
def rowOf (p : Position) : Index := BitVec.ofNat 2 (p.toNat / Config.nCols)

/-- Column of a phase: `p mod 4` (R78). -/
def columnOf (p : Position) : Index := BitVec.ofNat 2 (p.toNat % Config.nCols)

/-- The phase after `p`: `(p + 1) mod 16` (R107). -/
def nextPhase (p : Position) : Position := BitVec.ofNat (delta% Config.phaseW) ((p.toNat + 1) % Config.nPhases)

/-- The key code of the key at row `r`, column `c`: `4 * r + c` (R79). -/
def positionAt (r c : Index) : Position := BitVec.ofNat (delta% Config.phaseW) (Config.nCols * r.toNat + c.toNat)

/-- `onehot4(i)` (R8, R81). Row and digit selects carry the same value, `N_ROWS` being `N_DIGITS`. -/
def onehot4 (i : Index) : RowSelects := 1 <<< i.toNat

/-- `low` (R150): the one column bit of the phase's position reads 0. -/
def sampleLow (p : Position) (colN : Lines) : Bool := !colN.getLsbD (columnOf p).toNat

/-- Read of one display slot, whole (R53). -/
def readSlot (d : DispBuf) (i : Index) : Glyph := d[i.toNat]'i.isLt

/-- Write of one display slot, whole (R53, R193). -/
def writeSlot (d : DispBuf) (i : Index) (g : Glyph) : DispBuf := d.set i.toNat g i.isLt

/-- The look-up of R130 in a given table; codes above 15 give the blank (R131, R133). -/
def segLookup (table : BitVec 4 → Pattern) (g : Glyph) : Pattern :=
  if g.toNat ≤ 15 then table (g.setWidth 4) else Config.segBlank

/-- `SEG` (R130), over the OPEN table of R132. -/
def segPattern (g : Glyph) : Pattern := segLookup Config.segTable g

/-- The 2-bit encoding of `fsm` (R83). -/
def fsmCode (f : Fsm) : BitVec 2 :=
  match f with
  | .idle => 0b00
  | .detecting => 0b01
  | .pushed => 0b10

/-- The value of `fsm` that two bits encode; 0b11 encodes none (R83, U3). -/
def fsmOfCode (b : BitVec 2) : Option Fsm :=
  if b = 0b00 then some .idle else if b = 0b01 then some .detecting else if b = 0b10 then some .pushed else none

end Sys2Proof.Machine
end

