-- ==== Sys2Proof/Machine/Ops.lean ====
section
/-! DEFINITION. The shared operations: the word of a step, reset, and the two events. The block takes no exception and returns
from none (spec/60_exceptions.md R210, R213); the events `pushEvent` and `releaseEvent` are its counterpart of taking one
(R217), the host's clears its counterpart of returning (R218), and nothing is saved or restored. -/

namespace Sys2Proof.Machine

/-- The operation word of the next step, and the state once it is off the list. With no word listed the outside world, which is
under no law (R5, R250), presents a free one (log entry 1). -/
def fetch (s : State) : Opw × State :=
  match s.inputs with
  | w :: rest => (w, { s with inputs := rest })
  | [] => (Config.freeOpw s.draws, { s with draws := s.draws + 1 })

/-- `s` with the word `w` on the pins at the next step. -/
def present (w : Opw) (s : State) : State := { s with inputs := w :: s.inputs }

/-- Every register takes its reset value (R105, R39). What the outside world will present is no register of the block. -/
def resetRegisters (s : State) : State := { State.reset with inputs := s.inputs, draws := s.draws }

/-- One display slot written, the registers otherwise as they were (R193). -/
def storeSlot (i : Index) (g : Glyph) (s : State) : State := { s with dispBuf := writeSlot s.dispBuf i g }

/-- What a push event leaves (R156, R217); `key_code` already holds the key. -/
def pushEvent (s : State) : State :=
  setPush { s with detCnt := 0, relCnt := Config.releaseReload, fsm := .pushed }

/-- What a release event leaves (R160, R217); `key_code` and `push_confirmed` are not written. -/
def releaseEvent (s : State) : State :=
  setRelease { s with relCnt := 0, detCnt := 0, fsm := .idle }

end Sys2Proof.Machine
end

