-- ==== Sys2Proof/Machine/Control.lean ====
section
/-! DEFINITION. RESET and NOP (spec/40_tick_scheduler.md R104, R105). -/

namespace Sys2Proof.Machine

/-- RESET (R105, R230). -/
def execReset (s : State) : Host.Outcome State Fault Refusal := .next (resetRegisters s)

/-- NOP (R104): nothing. -/
def execNop (s : State) : Host.Outcome State Fault Refusal := .next s

end Sys2Proof.Machine
end

