-- ==== Sys2Proof/Machine/HostOps.lean ====
section
/-! DEFINITION. The host's operations CLRP, CLRR, WRD, and what the host and the board see (spec/45_host_operations.md,
spec/10_state.md R34, spec/30_encoding.md R85). -/

namespace Sys2Proof.Machine

/-- CLRP (R191). -/
def execClrp (s : State) : Host.Outcome State Fault Refusal := .next (clearPush s)

/-- CLRR (R192). -/
def execClrr (s : State) : Host.Outcome State Fault Refusal := .next (clearRelease s)

/-- WRD (R193). -/
def execWrd (i : Index) (g : Glyph) (s : State) : Host.Outcome State Fault Refusal :=
  .next (storeSlot i g s)

/-- The register STATUS (R34): bit 0 `push_confirmed`, bit 1 `release_confirmed`. -/
def statusRegister (s : State) : BitVec 2 := BitVec.ofBool s.releaseConfirmed ++ BitVec.ofBool s.pushConfirmed

/-- The register KEYCODE (R34). -/
def keycodeRegister (s : State) : Position := s.keyCode

/-- All that the host can read (R190). -/
def hostRead (s : State) : BitVec 2 × Position := (statusRegister s, keycodeRegister s)

/-- The pins the board sees (R85): row selects, digit selects, segments, buzzer; the registers themselves. -/
def boardPins (s : State) : RowSelects × DigitSelects × Pattern × Bool := (s.rowSel, s.digSel, s.seg, s.buzzer)

end Sys2Proof.Machine
end

