-- ==== Sys2Proof/Machine/Buzzer.lean ====
section
/-! DEFINITION. The buzzer driver, BUZZ (spec/44_buzzer_driver.md). -/

namespace Sys2Proof.Machine

/-- BUZZ (R180): toggles while PUSHED, else holds its level (R182). It reads `fsm`, not the flag (C9). -/
def buzz (s : State) : State := if s.fsm = .pushed then { s with buzzer := !s.buzzer } else s

end Sys2Proof.Machine
end

