-- ==== Sys2Proof/Machine/Display.lean ====
section
/-! DEFINITION. The display multiplexer, RENDER (spec/41_display_multiplexer.md). -/

namespace Sys2Proof.Machine

/-- RENDER (R120): both selects take the one-hot of the row (R121), `seg` the pattern of its slot (R122). -/
def render (s : State) : State :=
  { s with
    rowSel := onehot4 (rowOf s.phase)
    digSel := onehot4 (rowOf s.phase)
    seg := segPattern (readSlot s.dispBuf (rowOf s.phase)) }

end Sys2Proof.Machine
end

