-- ==== Sys2Proof/Machine/Scanner.lean ====
section
/-! DEFINITION. The keypad scanner and the debounce machine, SCAN (spec/43_keypad_scanner_debounce.md), one definition per arm that
writes something. The arms that write nothing are R152, R154 and R158. -/

namespace Sys2Proof.Machine

/-- First observation (R153): loaded, not loaded and decremented (C1). -/
def firstObservation (s : State) : State :=
  { s with detCnt := Config.detectReload, keyCode := s.phase, fsm := .detecting }

/-- A re-sample that is not low abandons the detection (R155); `key_code` keeps the candidate. -/
def abandon (s : State) : State := { s with detCnt := 0, fsm := .idle }

/-- A low re-sample while detecting (R157). -/
def countDetect (s : State) : State := { s with detCnt := s.detCnt - 1 }

/-- A low re-sample of a held key (R159). -/
def reloadRelease (s : State) : State := { s with relCnt := Config.releaseReload }

/-- A re-sample that is not low while pushed (R161). -/
def countRelease (s : State) : State := { s with relCnt := s.relCnt - 1 }

/-- A re-sample in DETECTING (R155, R156, R157). -/
def resampleDetecting (low : Bool) (s : State) : State :=
  if !low then abandon s
  else if s.detCnt ≤ 1 then pushEvent s
  else countDetect s

/-- A re-sample in PUSHED (R159, R160, R161). -/
def resamplePushed (low : Bool) (s : State) : State :=
  if low then reloadRelease s
  else if s.relCnt ≤ 1 then releaseEvent s
  else countRelease s

/-- SCAN (R162). -/
def scan (colN : Lines) (s : State) : State :=
  match s.fsm with
  | .idle => if sampleLow s.phase colN then firstObservation s else s
  | .detecting => if s.phase = s.keyCode then resampleDetecting (sampleLow s.phase colN) s else s
  | .pushed => if s.phase = s.keyCode then resamplePushed (sampleLow s.phase colN) s else s

end Sys2Proof.Machine
end

