-- ==== Sys2Proof/Machine/Tick.lean ====
section
/-! DEFINITION. The tick scheduler: ADVANCE and TICK (spec/40_tick_scheduler.md). Step (a) of the document's tick, re-arming the timer,
is not the block's (R103). -/

namespace Sys2Proof.Machine

/-- ADVANCE (R107). -/
def advance (s : State) : State := { s with phase := nextPhase s.phase }

/-- The four micro-operations of a TICK, in order (R100, R101). -/
def tick (colN : Lines) (s : State) : State := advance (buzz (scan colN (render s)))

/-- TICK (R100). -/
def execTick (colN : Lines) (s : State) : Host.Outcome State Fault Refusal := .next (tick colN s)

end Sys2Proof.Machine
end

