-- ==== Sys2Proof/Machine/Dispatch.lean ====
section
/-! DEFINITION. The meaning of each operation, one arm per constructor of `Instr`. -/

namespace Sys2Proof.Machine

def exec (i : Instr) (s : State) : Host.Outcome State Fault Refusal :=
  match i with
  | .reset => Sys2Proof.Machine.execReset s
  | .tick colN => Sys2Proof.Machine.execTick colN s
  | .clrp => Sys2Proof.Machine.execClrp s
  | .clrr => Sys2Proof.Machine.execClrr s
  | .wrd idx g => Sys2Proof.Machine.execWrd idx g s
  | .nop => Sys2Proof.Machine.execNop s

end Sys2Proof.Machine
end

