-- ==== Sys2Proof/Machine/Sequence.lean ====
section
/-! DEFINITION. The operations of one word, one after another within one atomic step (spec/40_tick_scheduler.md R106,
spec/20_memory.md R55), and runs over a sequence of words. -/

namespace Sys2Proof.Machine

/-- Run `f` on the next state, if there is one. -/
def andThen (o : Host.Outcome State Fault Refusal) (f : State → Host.Outcome State Fault Refusal) :
    Host.Outcome State Fault Refusal :=
  match o with
  | .next s => f s
  | .fault r => .fault r
  | .refused r => .refused r

/-- The operations of a word, each seeing what the earlier ones left (R106). -/
def execAll (ops : List Instr) (s : State) : Host.Outcome State Fault Refusal :=
  match ops with
  | [] => .next s
  | i :: rest => andThen (exec i s) (execAll rest)

/-- `Step(s, w)` (R106): the step under the operation word `w`. -/
def stepWord (w : Opw) (s : State) : Host.Outcome State Fault Refusal := execAll (decodeWord w) s

/-- The run `s(k+1) = Step(s(k), w(k))` over the words `ws` (R106). -/
def runWords (ws : List Opw) (s : State) : Host.Outcome State Fault Refusal :=
  match ws with
  | [] => .next s
  | w :: rest => andThen (stepWord w s) (runWords rest)

end Sys2Proof.Machine
end

