-- ==== Sys2Proof/Machine/Step.lean ====
section
/-! DEFINITION. One step of the machine: the word on the pins, and what it does (spec/00_scope.md R5). -/

namespace Sys2Proof.Machine

/-- One step: take the operation word of this step and perform it (R5, R106). -/
def step (s : State) : Host.Outcome State Fault Refusal := stepWord (fetch s).1 (fetch s).2

/-- `s` with the word of `nbits` bits `w` on the pins at the next step (bits above `nbits` are 0). -/
def State.withFetchWord (s : State) (nbits w : Nat) : State := present (BitVec.ofNat 16 (w % 2 ^ nbits)) s

end Sys2Proof.Machine
end

