-- ==== Sys2Proof/Machine/RefHost.lean ====
section
/-! DEFINITION. The surroundings the spec describes beside the block: the host's key-to-character table and reference protocol
(spec/45_host_operations.md R195, R197), and the ideal keypad (spec/70_reset_and_hazards.md R251). None of it is part of the
block or of its state (spec/00_scope.md R3); `step` uses none of it. -/

namespace Sys2Proof.Machine

/-- KEYCHAR as glyph codes: the identity (R195). -/
def keyChar (k : Position) : Glyph := k.setWidth (delta% Config.glyphW)

/-- The column lines an ideal keypad with the closed keys `K` answers a TICK at phase `p` with: line `c` is 0 iff
`4 * (p div 4) + c` is in `K` (R251). -/
def idealColumns (K : List Position) (p : Position) : Lines :=
  BitVec.ofBool (!K.contains (positionAt (rowOf p) 3)) ++ BitVec.ofBool (!K.contains (positionAt (rowOf p) 2)) ++
    BitVec.ofBool (!K.contains (positionAt (rowOf p) 1)) ++ BitVec.ofBool (!K.contains (positionAt (rowOf p) 0))

/-- `TICK@K * n` (R86): `n` TICKs under an ideal keypad with the closed keys `K`. -/
def ticksAt (K : List Position) (n : Nat) (s : State) : Host.Outcome State Fault Refusal :=
  match n with
  | 0 => .next s
  | n + 1 => andThen (exec (.tick (idealColumns K s.phase)) s) (fun t => ticksAt K n t)

/-- Where the reference host stands (R197): the four places of the rule, and two more for a host that is about to clear, has given one
of the two clears in a word of its own, and owes the other. -/
inductive HostPc where
  | waitingForPush
  | aboutToWrite
  | waitingForRelease
  | aboutToClear
  | owesReleaseClear
  | owesPushClear
  deriving DecidableEq, Repr

/-- The ways to clear that R197 allows: one word CLR, or two words in either order. -/
inductive ClearWay where
  | oneWord
  | pushFirst
  | releaseFirst
  deriving DecidableEq, Repr

/-- The host and the block together. -/
structure Closed where
  host : HostPc
  block : State
  deriving DecidableEq, Repr

/-- The next place of the host, from what it reads and, where it clears, from the way it does so (R197). -/
def hostNext (h : HostPc) (way : ClearWay) (s : State) : HostPc :=
  match h with
  | .waitingForPush => if s.pushConfirmed then .aboutToWrite else .waitingForPush
  | .aboutToWrite => .waitingForRelease
  | .waitingForRelease => if s.releaseConfirmed then .aboutToClear else .waitingForRelease
  | .aboutToClear =>
    match way with
    | .oneWord => .waitingForPush
    | .pushFirst => .owesReleaseClear
    | .releaseFirst => .owesPushClear
  | .owesReleaseClear => .waitingForPush
  | .owesPushClear => .waitingForPush

/-- The word the host presents with its move (R197). DESIGN CHOICE (log entry 8): a move that only reads presents NOP, and the key code
is read on the move that writes the slot. How it clears is no choice of the model: every way R197 allows is a `way`. -/
def hostWord (h : HostPc) (way : ClearWay) (s : State) : Opw :=
  match h with
  | .waitingForPush => encode .nop
  | .aboutToWrite => encode (.wrd 0 (keyChar s.keyCode))
  | .waitingForRelease => encode .nop
  | .aboutToClear =>
    match way with
    | .oneWord => encodeOps [.clrp, .clrr]
    | .pushFirst => encode .clrp
    | .releaseFirst => encode .clrr
  | .owesReleaseClear => encode .clrr
  | .owesPushClear => encode .clrp

/-- One move of the two together: a TICK with any column lines, or a move of the host, which clears in the given way where it clears
(R197: they interleave freely). DESIGN CHOICE (log entry 8): the two never share a word. -/
inductive Move where
  | tick (colN : Lines)
  | host (way : ClearWay)
  deriving DecidableEq, Repr

/-- The place of the host after a move. -/
def moveHost (m : Move) (y : Closed) : HostPc :=
  match m with
  | .tick _ => y.host
  | .host way => hostNext y.host way y.block

/-- The word on the pins in a move. -/
def moveWord (m : Move) (y : Closed) : Opw :=
  match m with
  | .tick c => encode (.tick c)
  | .host way => hostWord y.host way y.block

/-- One move: the place of the host and the block after it. -/
def moveClosed (m : Move) (y : Closed) : Host.Outcome Closed Fault Refusal :=
  match stepWord (moveWord m y) y.block with
  | .next t => .next ⟨moveHost m y, t⟩
  | .fault r => .fault r
  | .refused r => .refused r

/-- The run of the block beside the reference host over the moves `ms`. -/
def runClosed (ms : List Move) (y : Closed) : Host.Outcome Closed Fault Refusal :=
  match ms with
  | [] => .next y
  | m :: rest =>
    match moveClosed m y with
    | .next z => runClosed rest z
    | .fault r => .fault r
    | .refused r => .refused r

end Sys2Proof.Machine
end

