-- ==== Sys2Proof/Safety.lean ====
section
/-! DEFINITION. The terms claims are made in: samples and events (spec/43_keypad_scanner_debounce.md R150, R162), the Releasing
predicate (spec/10_state.md R27), the invariants the spec gives of reachable states (R36, R37, spec/44_buzzer_driver.md R181),
and runs. -/

namespace Sys2Proof.Machine

/-! ### Samples and events -/

/-- The sample of a TICK is low: column `phase mod 4` reads 0 (R150). -/
abbrev LowSample (colN : Lines) (s : State) : Prop := colN.getLsbD (s.phase.toNat % 4) = false

/-- The TICK samples the position being tracked, which makes it a re-sample in DETECTING and PUSHED (R151). -/
abbrev AtKey (s : State) : Prop := s.phase = s.keyCode

/-- `PushEvent(s, col_n)` (R162). -/
abbrev PushEvent (colN : Lines) (s : State) : Prop :=
  s.fsm = .detecting ∧ AtKey s ∧ LowSample colN s ∧ s.detCnt.toNat ≤ 1

/-- `ReleaseEvent(s, col_n)` (R162). -/
abbrev ReleaseEvent (colN : Lines) (s : State) : Prop :=
  s.fsm = .pushed ∧ AtKey s ∧ ¬ LowSample colN s ∧ s.relCnt.toNat ≤ 1

/-- The document's fourth state (R27). -/
abbrev Releasing (s : State) : Prop := s.fsm = .pushed ∧ s.relCnt.toNat < 32

/-- The two events the block reports (R12, R162). -/
inductive Event where
  | push
  | release
  deriving DecidableEq, Repr

/-- The step under `w` performs a TICK: `rst` overrides the strobe (R71). -/
abbrev TicksIn (w : Opw) : Prop := fieldRst w = false ∧ fieldTick w = true

/-- The event of one step, read off the state before it and the word (R162): host operations of the same word change none of
the registers the predicates read. -/
def eventOf (w : Opw) (s : State) : List Event :=
  if TicksIn w ∧ PushEvent (fieldColN w) s then [.push]
  else if TicksIn w ∧ ReleaseEvent (fieldColN w) s then [.release]
  else []

/-! ### What a TICK does whatever the debounce state is -/

/-- RENDER, ADVANCE, and what no TICK writes (R100, R107, R120): the part of the next state that SCAN and BUZZ do not decide. -/
abbrev TickAlways (s t : State) : Prop :=
  t.phase = s.phase + 1 ∧ t.rowSel = onehot4 (rowOf s.phase) ∧ t.digSel = onehot4 (rowOf s.phase) ∧
    t.seg = segPattern (readSlot s.dispBuf (rowOf s.phase)) ∧ t.dispBuf = s.dispBuf

/-- Both flags are as they were. -/
abbrev FlagsKept (s t : State) : Prop :=
  t.pushConfirmed = s.pushConfirmed ∧ t.releaseConfirmed = s.releaseConfirmed

/-- The registers of R20 are the same; the model's own fields may differ. -/
abbrev SameRegisters (s t : State) : Prop :=
  s.phase = t.phase ∧ s.fsm = t.fsm ∧ s.detCnt = t.detCnt ∧ s.relCnt = t.relCnt ∧ s.keyCode = t.keyCode ∧
    s.pushConfirmed = t.pushConfirmed ∧ s.releaseConfirmed = t.releaseConfirmed ∧ s.dispBuf = t.dispBuf ∧
    s.rowSel = t.rowSel ∧ s.digSel = t.digSel ∧ s.seg = t.seg ∧ s.buzzer = t.buzzer

/-! ### Invariants -/

/-- R36: the debounce state and its counters. -/
abbrev DebounceInv (s : State) : Prop :=
  (s.fsm = .idle → s.detCnt.toNat = 0 ∧ s.relCnt.toNat = 0) ∧
  (s.fsm = .detecting → 1 ≤ s.detCnt.toNat ∧ s.detCnt.toNat ≤ 32 ∧ s.relCnt.toNat = 0) ∧
  (s.fsm = .pushed → s.detCnt.toNat = 0 ∧ 1 ≤ s.relCnt.toNat ∧ s.relCnt.toNat ≤ 32)

/-- R37: the select lines are equal, and exactly one of them is 1. -/
abbrev SelectInv (s : State) : Prop :=
  s.rowSel = s.digSel ∧ (s.rowSel = 0b0001 ∨ s.rowSel = 0b0010 ∨ s.rowSel = 0b0100 ∨ s.rowSel = 0b1000)

/-- Behind R181 and R182: the level is 0 outside PUSHED, and in PUSHED it is the parity of the distance of `phase` from the
key, for both change on every TICK. -/
abbrev BuzzerInv (s : State) : Prop :=
  (s.fsm ≠ .pushed → s.buzzer = false) ∧
  (s.fsm = .pushed → (s.buzzer = true ↔ (s.phase - s.keyCode).toNat % 2 = 1))

/-- Beside the reference host (R197): slots 1 to 3 blank, slot 0 blank or a digit. -/
abbrev OneDigitInv (d : DispBuf) : Prop :=
  readSlot d 1 = 16 ∧ readSlot d 2 = 16 ∧ readSlot d 3 = 16 ∧ (readSlot d 0).toNat ≤ 16

/-! ### Runs -/

/-- The state after `n` TICKs, tick `j` of them with the column lines `cols j`. -/
def ticks (cols : Nat → Lines) (n : Nat) (s : State) : Host.Outcome State Fault Refusal :=
  match n with
  | 0 => .next s
  | n + 1 => andThen (ticks cols n s) (fun t => exec (.tick (cols n)) t)

/-- How many of the words `ws` perform a TICK. -/
def tickCount (ws : List Opw) : Nat := (ws.filter (fun w => decide (TicksIn w))).length

/-- No word of `ws` carries a RESET. -/
abbrev NoReset (ws : List Opw) : Prop := ∀ w ∈ ws, fieldRst w = false

/-- The events of a run, in order. -/
def events (ws : List Opw) (s : State) : List Event :=
  match ws with
  | [] => []
  | w :: rest =>
    match stepWord w s with
    | .next t => eventOf w s ++ events rest t
    | .fault _ => []
    | .refused _ => []

/-- The list alternates between the two events, its first one being `e`. -/
def Alternates (e : Event) (l : List Event) : Prop :=
  match l with
  | [] => True
  | x :: rest => x = e ∧ Alternates (if e = .push then .release else .push) rest

/-- The two words ask the same of the tick engine: they may differ in the host's strobes and their operands (R196). -/
abbrev SameForScanner (w v : Opw) : Prop :=
  fieldRst w = fieldRst v ∧ fieldTick w = fieldTick v ∧ (fieldTick w = true → fieldColN w = fieldColN v)

/-- The registers the tick engine computes from: everything but the flags, the display buffer and the pattern shown. -/
abbrev SameScanner (s t : State) : Prop :=
  s.phase = t.phase ∧ s.fsm = t.fsm ∧ s.detCnt = t.detCnt ∧ s.relCnt = t.relCnt ∧ s.keyCode = t.keyCode ∧
    s.buzzer = t.buzzer ∧ s.rowSel = t.rowSel ∧ s.digSel = t.digSel

end Sys2Proof.Machine
end

