-- ==== Sys2Proof/Certificates/Slice0/Obligations.lean ====
section
/-! DEFINITION. The statements for the provers, taken from the numbered rules of the spec. -/

open Sys2Proof Sys2Proof.Machine

/-! ### Encoding and decoding (spec/30_encoding.md) -/

/-- Words written out from section 2 and the notation of section 4 decode to the operations they stand for. -/
def Obligations.WordsOfTheSpecDecode : Prop :=
  decodeWord 0x8000 = [.reset] ∧ decodeWord 0xFFFF = [.reset] ∧
  decodeWord 0x7400 = [.tick 0b1101] ∧ decodeWord 0x7C00 = [.tick 0b1111] ∧ decodeWord 0x4000 = [.tick 0b0000] ∧
  decodeWord 0x3E00 = [.clrp] ∧ decodeWord 0x3D00 = [.clrr] ∧ decodeWord 0x3F00 = [.clrp, .clrr] ∧
  decodeWord 0x3C8A = [.wrd 0 10] ∧ decodeWord 0x3CFF = [.wrd 3 31] ∧
  decodeWord 0x3C00 = [.nop] ∧ decodeWord 0x0000 = [.nop] ∧ decodeWord 0x207F = [.nop] ∧
  decodeWord 0x7C8A = [.wrd 0 10, .tick 0b1111] ∧ decodeWord 0x5F00 = [.clrp, .clrr, .tick 0b0111] ∧
  decodeWord 0x3FA3 = [.clrp, .clrr, .wrd 1 3]

/-- R72, R74, R75, R76 (and the mask and fields of R73 and R77): an operation is in a word exactly if the word has the `match`
of its row under the `mask`, and its fields are the bits the pattern names. -/
def Obligations.MaskAndMatchSelectTheOperation : Prop :=
  ∀ w : Opw,
    (Instr.reset ∈ decodeWord w ↔ w &&& 0x8000 = 0x8000) ∧
    (∀ c, Instr.tick c ∈ decodeWord w ↔ w &&& 0xC000 = 0x4000 ∧ c = w.extractLsb' 10 4) ∧
    (Instr.clrp ∈ decodeWord w ↔ w &&& 0x8200 = 0x0200) ∧
    (Instr.clrr ∈ decodeWord w ↔ w &&& 0x8100 = 0x0100) ∧
    (∀ i g, Instr.wrd i g ∈ decodeWord w ↔
      w &&& 0x8080 = 0x0080 ∧ i = w.extractLsb' 5 2 ∧ g = w.extractLsb' 0 5) ∧
    (Instr.nop ∈ decodeWord w ↔ w &&& 0xC380 = 0x0000)

/-- Decoding the word written for an operation, or for any list of operations one word can carry, gives back exactly them,
every operand at every value. -/
def Obligations.DecodeOfEncodeIsTheSame : Prop :=
  (∀ i : Instr, wellFormed i = true → decodeWord (encode i) = [i]) ∧
  (∀ ops : List Instr, wellFormedOps ops = true → decodeWord (encodeOps ops) = ops)

/-- Every word decodes to a list one word can carry, and writing that list again loses nothing of it. -/
def Obligations.EveryWordDecodesWellFormed : Prop :=
  ∀ w : Opw, wellFormedOps (decodeWord w) = true ∧ decodeWord (encodeOps (decodeWord w)) = decodeWord w

/-- R84: every word is legal in every state, and two words that differ only in bits their operations do not read do the same; a glyph
code of 17 to 31 is accepted too and renders as blank. -/
def Obligations.UnreadBitsAreDontCare : Prop :=
  (∀ (w : Opw) (s : State), TicksIn w → fieldDispWe w = true → fieldDispIdx w = rowOf s.phase →
    17 ≤ (fieldDispData w).toNat →
    ∃ t, stepWord w s = .next t ∧ readSlot t.dispBuf (fieldDispIdx w) = fieldDispData w ∧ t.seg = 0x00) ∧
  ∀ (w v : Opw) (s : State),
    fieldRst w = fieldRst v →
    (fieldRst w = false →
      fieldTick w = fieldTick v ∧ fieldClrPush w = fieldClrPush v ∧ fieldClrRelease w = fieldClrRelease v ∧
        fieldDispWe w = fieldDispWe v ∧ (fieldTick w = true → fieldColN w = fieldColN v) ∧
        (fieldDispWe w = true → fieldDispIdx w = fieldDispIdx v ∧ fieldDispData w = fieldDispData v)) →
    ∃ t, stepWord w s = .next t ∧ stepWord v s = .next t

/-! ### The step -/

/-- A step performs the word at the head of `inputs`: for a word with one operation it is `exec` of it, for a word with several
they run one after another; with no word listed the word is a free one (log entry 1); `withFetchWord` puts its word there. -/
def Obligations.StepRunsTheDecodedOperation : Prop :=
  (∀ (s : State) (w : Opw) (rest : List Opw) (i : Instr),
    s.inputs = w :: rest → decodeWord w = [i] → wellFormed i = true → step s = exec i { s with inputs := rest }) ∧
  (∀ (s : State) (w : Opw) (rest : List Opw),
    s.inputs = w :: rest → step s = execAll (decodeWord w) { s with inputs := rest }) ∧
  (∀ s : State, s.inputs = [] →
    step s = execAll (decodeWord (Config.freeOpw s.draws)) { s with draws := s.draws + 1 }) ∧
  (∀ (s : State) (i : Instr), step (s.withFetchWord 16 (encode i).toNat) = stepWord (encode i) s)

/-- R106: `Step(s, w)` as the spec writes it, bit by bit (`ResetState` being every register's reset value), and the run over a sequence
of words. -/
def Obligations.StepIsTheSpecsStepFunction : Prop :=
  (∀ (w : Opw) (s : State), w.getLsbD 15 = true → ∃ t, stepWord w s = .next t ∧ SameRegisters t State.reset) ∧
  (∀ (w : Opw) (s : State), w.getLsbD 15 = false →
    let s1 := if w.getLsbD 9 = true then { s with pushConfirmed := false } else s
    let s2 := if w.getLsbD 8 = true then { s1 with releaseConfirmed := false } else s1
    let s3 := if w.getLsbD 7 = true then
      { s2 with dispBuf := writeSlot s2.dispBuf (w.extractLsb' 5 2) (w.extractLsb' 0 5) } else s2
    ∃ t, stepWord w s = .next t ∧ (if w.getLsbD 14 = true then exec (.tick (w.extractLsb' 10 4)) s3 else .next s3) = .next t) ∧
  (∀ (ws : List Opw) (w : Opw) (s t : State),
    runWords ws s = .next t → runWords (ws ++ [w]) s = stepWord w t)

/-- A step with several operations equals the steps of its operations given in one word each, host operations first, then the
TICK (section 2 of spec/20_memory.md). -/
def Obligations.CombinedWordEqualsSingleSteps : Prop :=
  ∀ (w : Opw) (s : State), stepWord w s = runWords ((decodeWord w).map encode) s

/-- R210: no operation, no word and no step, in any state, ends in a fault or a refusal. -/
def Obligations.NothingFaultsAndNothingIsRefused : Prop :=
  (∀ (i : Instr) (s : State), ∃ t, exec i s = .next t) ∧ (∀ (w : Opw) (s : State), ∃ t, stepWord w s = .next t) ∧
    (∀ s : State, ∃ t, step s = .next t)

/-! ### RESET, NOP and the host's operations (spec/40, spec/45) -/

/-- No operation touches the model's own fields, the words still to come and the count of free words: that they are kept over a RESET
too is the model's choice (log entries 1 and 2). -/
def Obligations.NoOperationTouchesTheModelsOwnFields : Prop :=
  ∀ (i : Instr) (s : State), ∃ t, exec i s = .next t ∧ t.inputs = s.inputs ∧ t.draws = s.draws

/-- R39, R230: RESET writes every register with its reset value, whatever the state before and the other bits of the word were;
the machine starts in that state. -/
def Obligations.ResetWritesEveryRegister : Prop :=
  (∀ (w : Opw) (s : State), w.getLsbD 15 = true → ∃ t, stepWord w s = .next t ∧ exec .reset s = .next t ∧
    t.phase = 0 ∧ t.fsm = .idle ∧ t.detCnt = 0 ∧ t.relCnt = 0 ∧ t.keyCode = 0 ∧ t.pushConfirmed = false ∧
    t.releaseConfirmed = false ∧ (∀ i, readSlot t.dispBuf i = 16) ∧ t.rowSel = 0b0001 ∧ t.digSel = 0b0001 ∧
    t.seg = 0x00 ∧ t.buzzer = false ∧ SameRegisters t State.reset)

/-- R77, R104: a word without `tick`, without `rst` and without a host strobe changes no register, whatever its other bits. -/
def Obligations.NopChangesNothing : Prop :=
  (∀ (w : Opw) (s : State), w &&& 0xC380 = 0x0000 → stepWord w s = .next s) ∧
  (∀ s : State, exec .nop s = .next s ∧ stepWord 0x3C00 s = .next s ∧ stepWord 0x0000 s = .next s)

/-- R191: CLRP writes `push_confirmed <- 0` and nothing else; a clear flag stays as it is; a push event of the same word is not
lost; a cleared flag stays 0 until the next push event. -/
def Obligations.ClrpClearsThePushFlagAlone : Prop :=
  (∀ s : State, exec .clrp s = .next { s with pushConfirmed := false } ∧
    stepWord 0x3E00 s = .next { s with pushConfirmed := false }) ∧
  (∀ s : State, s.pushConfirmed = false → exec .clrp s = .next s) ∧
  (∀ (w : Opw) (s : State), TicksIn w → fieldClrPush w = true → PushEvent (fieldColN w) s →
    ∃ t, stepWord w s = .next t ∧ t.pushConfirmed = true) ∧
  (∀ (w : Opw) (s : State), s.pushConfirmed = false → ¬ (TicksIn w ∧ PushEvent (fieldColN w) s) →
    ∃ t, stepWord w s = .next t ∧ t.pushConfirmed = false)

/-- R192: CLRR writes `release_confirmed <- 0` and nothing else; the corner cases are those of CLRP with the release event; CLRP and
CLRR may be given in one word. -/
def Obligations.ClrrClearsTheReleaseFlagAlone : Prop :=
  (∀ s : State, exec .clrr s = .next { s with releaseConfirmed := false } ∧
    stepWord 0x3D00 s = .next { s with releaseConfirmed := false } ∧
    stepWord 0x3F00 s = .next { s with pushConfirmed := false, releaseConfirmed := false }) ∧
  (∀ s : State, s.releaseConfirmed = false → exec .clrr s = .next s) ∧
  (∀ (w : Opw) (s : State), TicksIn w → fieldClrRelease w = true → ReleaseEvent (fieldColN w) s →
    ∃ t, stepWord w s = .next t ∧ t.releaseConfirmed = true) ∧
  (∀ (w : Opw) (s : State), s.releaseConfirmed = false → ¬ (TicksIn w ∧ ReleaseEvent (fieldColN w) s) →
    ∃ t, stepWord w s = .next t ∧ t.releaseConfirmed = false)

/-- R193: WRD writes one slot whole and nothing else, every slot and every glyph code; `seg` waits for the next RENDER; a TICK of
the same word renders what the WRD wrote. -/
def Obligations.WrdWritesOneSlotWhole : Prop :=
  (∀ (i : Index) (g : Glyph) (s : State), ∃ t, exec (.wrd i g) s = .next t ∧ readSlot t.dispBuf i = g ∧
    (∀ j, j ≠ i → readSlot t.dispBuf j = readSlot s.dispBuf j) ∧ t = { s with dispBuf := t.dispBuf }) ∧
  (∀ (w : Opw) (s : State), TicksIn w → fieldDispWe w = true → fieldDispIdx w = rowOf s.phase →
    ∃ t, stepWord w s = .next t ∧ t.seg = segPattern (fieldDispData w) ∧
      (17 ≤ (fieldDispData w).toNat → t.seg = 0x00)) ∧
  (∀ s : State, ∃ t u, stepWord 0x3C8A s = .next t ∧ readSlot t.dispBuf 0 = 10 ∧
    (s.phase.toNat ≤ 3 → stepWord 0x7C00 t = .next u ∧ u.seg = Config.segTable 10))

/-- R196: host operations have no effect on the scanner or the outputs and cannot set a flag or write `key_code`; the tick engine
never reads a flag. -/
def Obligations.HostOperationsNeverTouchTheScanner : Prop :=
  (∀ (w : Opw) (s : State), fieldRst w = false → fieldTick w = false →
    ∃ t, stepWord w s = .next t ∧ t.fsm = s.fsm ∧ t.detCnt = s.detCnt ∧ t.relCnt = s.relCnt ∧ t.phase = s.phase ∧
      t.keyCode = s.keyCode ∧ t.buzzer = s.buzzer ∧ t.rowSel = s.rowSel ∧ t.digSel = s.digSel ∧ t.seg = s.seg ∧
      (t.pushConfirmed = true → s.pushConfirmed = true) ∧ (t.releaseConfirmed = true → s.releaseConfirmed = true)) ∧
  (∀ (c : Lines) (s : State) (p r : Bool), ∃ t u, exec (.tick c) s = .next t ∧
    exec (.tick c) { s with pushConfirmed := p, releaseConfirmed := r } = .next u ∧
    u = { t with pushConfirmed := u.pushConfirmed, releaseConfirmed := u.releaseConfirmed })

/-- Over any run, what the host does changes nothing the scanner does: two runs whose words ask the same of the tick engine, from
states with the same scanner registers, end with the same scanner registers. -/
def Obligations.HostNeverInfluencesTheScanner : Prop :=
  ∀ (ws vs : List Opw) (s u : State), List.Forall₂ SameForScanner ws vs → SameScanner s u →
    ∃ t v, runWords ws s = .next t ∧ runWords vs u = .next v ∧ SameScanner t v

/-- R225: without a `tick` strobe (and without RESET) a run of any length holds the scanner, its counters and every output. -/
def Obligations.WithoutTicksTheBlockHolds : Prop :=
  ∀ (ws : List Opw) (s : State), NoReset ws → tickCount ws = 0 →
    ∃ t, runWords ws s = .next t ∧ SameScanner s t ∧ t.seg = s.seg

/-! ### TICK: RENDER, BUZZ, ADVANCE (spec/40, spec/41, spec/42, spec/44) -/

/-- R107: ADVANCE is the last micro-operation of every TICK and writes `phase` alone, unconditionally, 15 going to 0; no other operation
changes `phase` except RESET; so for whole words too. -/
def Obligations.PhaseAdvancesOnTicksOnly : Prop :=
  (∀ (c : Lines) (s : State),
    let u := buzz (scan c (render s))
    exec (.tick c) s = .next { u with phase := u.phase + 1 } ∧ u.phase = s.phase) ∧
  (∀ (w : Opw) (s : State), ∃ t, stepWord w s = .next t ∧ t.phase.toNat =
    if fieldRst w = true then 0 else if fieldTick w = true then (s.phase.toNat + 1) % 16 else s.phase.toNat) ∧
  ∀ (i : Instr) (s : State), ∃ t, exec i s = .next t ∧
    (match i with
      | .tick _ => t.phase.toNat = (s.phase.toNat + 1) % 16
      | .reset => t.phase = 0
      | .clrp => t.phase = s.phase
      | .clrr => t.phase = s.phase
      | .wrd _ _ => t.phase = s.phase
      | .nop => t.phase = s.phase)

/-- R121, R122: after every TICK exactly the row and the digit `phase div 4` are selected, and `seg` is the pattern of that digit's
slot, blank for every code above 15. -/
def Obligations.RenderSelectsOneDigitAndShowsItsSlot : Prop :=
  ∀ (c : Lines) (s : State), ∃ t, exec (.tick c) s = .next t ∧ t.dispBuf = s.dispBuf ∧ t.rowSel = t.digSel ∧
    (∀ j, j < 4 → (t.rowSel.getLsbD j = true ↔ j = s.phase.toNat / 4)) ∧
    ∀ g, g = readSlot s.dispBuf (BitVec.ofNat 2 (s.phase.toNat / 4)) →
      (g.toNat ≤ 15 → t.seg = Config.segTable (BitVec.ofNat 4 g.toNat)) ∧ (16 ≤ g.toNat → t.seg = 0x00)

/-- R130, R131, R133: SEG of every glyph code, over any table. -/
def Obligations.SegLooksUpOrBlanks : Prop :=
  ∀ (table : BitVec 4 → Pattern) (g : Glyph),
    (g.toNat ≤ 15 → segLookup table g = table (BitVec.ofNat 4 g.toNat)) ∧ (16 ≤ g.toNat → segLookup table g = 0x00) ∧
      segPattern g = segLookup Config.segTable g

/-- R101: the four micro-operations run in order; BUZZ sees `fsm` as SCAN left it, so it toggles on the tick of a push event and not
on that of a release event; the mutual order of RENDER and SCAN has no effect. -/
def Obligations.MicroOperationsRunInOrder : Prop :=
  ∀ (c : Lines) (s : State),
    exec (.tick c) s = .next (advance (buzz (scan c (render s)))) ∧
    exec (.tick c) s = .next (advance (buzz (render (scan c s)))) ∧
    (PushEvent c s → ∃ t, exec (.tick c) s = .next t ∧ t.buzzer = !s.buzzer) ∧
    (ReleaseEvent c s → ∃ t, exec (.tick c) s = .next t ∧ t.buzzer = s.buzzer)

/-- R180: on a TICK the buzzer toggles exactly if SCAN leaves `fsm` = PUSHED, whatever the flags are; no other operation but RESET
writes it; so for whole words too. -/
def Obligations.BuzzerTogglesExactlyWhilePushed : Prop :=
  (∀ (w : Opw) (s : State), ∃ t, stepWord w s = .next t ∧ t.buzzer =
    if fieldRst w = true then false
    else if fieldTick w = true then xor s.buzzer (decide (t.fsm = .pushed)) else s.buzzer) ∧
  ∀ (i : Instr) (s : State), ∃ t, exec i s = .next t ∧
    (match i with
      | .tick _ => t.buzzer = xor s.buzzer (decide (t.fsm = .pushed))
      | .reset => t.buzzer = false
      | .clrp => t.buzzer = s.buzzer
      | .clrr => t.buzzer = s.buzzer
      | .wrd _ _ => t.buzzer = s.buzzer
      | .nop => t.buzzer = s.buzzer)

/-! ### SCAN, arm by arm (spec/43_keypad_scanner_debounce.md). Each arm gives every register of the next state. -/

/-- R152, R154, R158: in IDLE a sample that is not low, and in DETECTING and PUSHED any sample of another position, changes nothing
in the debounce state; in PUSHED the buzzer still toggles. -/
def Obligations.SamplesThatDoNotCountChangeNothing : Prop :=
  ∀ (c : Lines) (s : State),
    (s.fsm = .idle ∧ ¬ LowSample c s) ∨ (s.fsm = .detecting ∧ ¬ AtKey s) ∨ (s.fsm = .pushed ∧ ¬ AtKey s) →
    ∃ t, exec (.tick c) s = .next t ∧ TickAlways s t ∧ FlagsKept s t ∧ t.fsm = s.fsm ∧ t.detCnt = s.detCnt ∧
      t.relCnt = s.relCnt ∧ t.keyCode = s.keyCode ∧ t.buzzer = (if s.fsm = .pushed then !s.buzzer else s.buzzer)

/-- R153: the first observation loads the detect counter with 32 and remembers the position; the candidate is the first position in
scanning order from the current phase whose sample is low. -/
def Obligations.FirstObservationStartsADetection : Prop :=
  (∀ (c : Lines) (s : State), s.fsm = .idle → LowSample c s →
    ∃ t, exec (.tick c) s = .next t ∧ TickAlways s t ∧ FlagsKept s t ∧ t.fsm = .detecting ∧ t.detCnt = 32 ∧
      t.relCnt = s.relCnt ∧ t.keyCode = s.phase ∧ t.buzzer = s.buzzer) ∧
  (∀ (cols : Nat → Lines) (s : State) (n : Nat), s.fsm = .idle →
    (∀ j, j < n → (cols j).getLsbD ((s.phase.toNat + j) % 4) = true) →
    (cols n).getLsbD ((s.phase.toNat + n) % 4) = false →
    ∃ t, ticks cols (n + 1) s = .next t ∧ t.fsm = .detecting ∧ t.detCnt = 32 ∧ t.keyCode = s.phase + BitVec.ofNat 4 n)

/-- R155: one re-sample that is not low abandons the detection at any count; `key_code` keeps the candidate. A new first observation can
come with the next TICK, at the next position; the abandoned position itself is sampled again 16 TICKs later. -/
def Obligations.AHighResampleAbandonsTheDetection : Prop :=
  ∀ (c : Lines) (s : State), s.fsm = .detecting → AtKey s → ¬ LowSample c s →
    ∃ t, exec (.tick c) s = .next t ∧ TickAlways s t ∧ FlagsKept s t ∧ t.fsm = .idle ∧ t.detCnt = 0 ∧
      t.relCnt = s.relCnt ∧ t.keyCode = s.keyCode ∧ t.buzzer = s.buzzer ∧
      (∀ d, LowSample d t →
        ∃ u, exec (.tick d) t = .next u ∧ u.fsm = .detecting ∧ u.detCnt = 32 ∧ u.keyCode = s.keyCode + 1) ∧
      (∀ (cols : Nat → Lines) (n : Nat), n < 16 → ∃ u, ticks cols n t = .next u ∧ (u.phase = s.keyCode ↔ n = 15))

/-- R156: the low re-sample that takes the count to 0 is the push event. -/
def Obligations.TheLastLowResampleConfirmsThePush : Prop :=
  ∀ (c : Lines) (s : State), PushEvent c s →
    ∃ t, exec (.tick c) s = .next t ∧ TickAlways s t ∧ t.fsm = .pushed ∧ t.detCnt = 0 ∧ t.relCnt = 32 ∧
      t.keyCode = s.keyCode ∧ t.pushConfirmed = true ∧ t.releaseConfirmed = s.releaseConfirmed ∧
      t.buzzer = !s.buzzer

/-- R157: a low re-sample at a count of 2 or more decrements it. -/
def Obligations.ALowResampleCountsTheDetectionDown : Prop :=
  ∀ (c : Lines) (s : State), s.fsm = .detecting → AtKey s → LowSample c s → 2 ≤ s.detCnt.toNat →
    ∃ t, exec (.tick c) s = .next t ∧ TickAlways s t ∧ FlagsKept s t ∧ t.fsm = .detecting ∧
      t.detCnt.toNat = s.detCnt.toNat - 1 ∧ t.relCnt = s.relCnt ∧ t.keyCode = s.keyCode ∧ t.buzzer = s.buzzer

/-- R159: a low re-sample of a held key reloads the release counter with 32 and sets no flag. -/
def Obligations.AHeldKeyReloadsTheReleaseCounter : Prop :=
  ∀ (c : Lines) (s : State), s.fsm = .pushed → AtKey s → LowSample c s →
    ∃ t, exec (.tick c) s = .next t ∧ TickAlways s t ∧ FlagsKept s t ∧ t.fsm = .pushed ∧ t.detCnt = s.detCnt ∧
      t.relCnt = 32 ∧ t.keyCode = s.keyCode ∧ t.buzzer = !s.buzzer

/-- R160: the re-sample that is not low and takes the count to 0 is the release event. -/
def Obligations.TheLastHighResampleConfirmsTheRelease : Prop :=
  ∀ (c : Lines) (s : State), ReleaseEvent c s →
    ∃ t, exec (.tick c) s = .next t ∧ TickAlways s t ∧ t.fsm = .idle ∧ t.detCnt = 0 ∧ t.relCnt = 0 ∧
      t.keyCode = s.keyCode ∧ t.releaseConfirmed = true ∧ t.pushConfirmed = s.pushConfirmed ∧ t.buzzer = s.buzzer

/-- R161: a re-sample that is not low at a count of 2 or more decrements it. -/
def Obligations.AHighResampleCountsTheReleaseDown : Prop :=
  ∀ (c : Lines) (s : State), s.fsm = .pushed → AtKey s → ¬ LowSample c s → 2 ≤ s.relCnt.toNat →
    ∃ t, exec (.tick c) s = .next t ∧ TickAlways s t ∧ FlagsKept s t ∧ t.fsm = .pushed ∧ t.detCnt = s.detCnt ∧
      t.relCnt.toNat = s.relCnt.toNat - 1 ∧ t.keyCode = s.keyCode ∧ t.buzzer = !s.buzzer

/-- R150: a TICK reads one column bit, `col_n[phase mod 4]`, and forms `low`, which is 1 iff that bit is 0: a detection starts iff `low`, a
re-sample keeps or confirms one iff `low`, and in PUSHED `low` reloads the release counter and not `low` counts it down. The other three
bits are not read, and in DETECTING and PUSHED at another position none matters. The sample belongs to the position of the row RENDER
selects in the same TICK and the column read. -/
def Obligations.OneColumnBitIsRead : Prop :=
  (∀ (c : Lines) (s : State), sampleLow s.phase c = true ↔ c.getLsbD (s.phase.toNat % 4) = false) ∧
  (∀ (c : Lines) (s : State), ∃ t, exec (.tick c) s = .next t ∧
    (s.fsm = .idle → (t.fsm = .detecting ↔ sampleLow s.phase c = true)) ∧
    (s.fsm = .detecting → AtKey s → (t.fsm ≠ .idle ↔ sampleLow s.phase c = true)) ∧
    (s.fsm = .pushed → AtKey s →
      if sampleLow s.phase c = true then t.relCnt = 32 else t.relCnt.toNat = s.relCnt.toNat - 1)) ∧
  ∀ (c d : Lines) (s : State),
    (c.getLsbD (s.phase.toNat % 4) = d.getLsbD (s.phase.toNat % 4) ∨ (s.fsm ≠ .idle ∧ ¬ AtKey s)) →
    ∃ t, exec (.tick c) s = .next t ∧ exec (.tick d) s = .next t ∧ t.rowSel = onehot4 (rowOf s.phase) ∧
      s.phase = positionAt (rowOf s.phase) (columnOf s.phase)

/-- R26: each flag is a sticky latch, 1 after a step exactly if the step was no RESET and its event happened in it or it was 1 and the
host did not clear it; nothing else depends on a flag. -/
def Obligations.FlagsAreStickyLatches : Prop :=
  (∀ (w : Opw) (s : State) (p r : Bool), ∃ t u, stepWord w s = .next t ∧
    stepWord w { s with pushConfirmed := p, releaseConfirmed := r } = .next u ∧
    u = { t with pushConfirmed := u.pushConfirmed, releaseConfirmed := u.releaseConfirmed }) ∧
  ∀ (w : Opw) (s : State), ∃ t, stepWord w s = .next t ∧
    (t.pushConfirmed = true ↔ fieldRst w = false ∧
      ((fieldTick w = true ∧ PushEvent (fieldColN w) s) ∨ (s.pushConfirmed = true ∧ fieldClrPush w = false))) ∧
    (t.releaseConfirmed = true ↔ fieldRst w = false ∧
      ((fieldTick w = true ∧ ReleaseEvent (fieldColN w) s) ∨ (s.releaseConfirmed = true ∧ fieldClrRelease w = false)))

/-- Releasing holds after a TICK exactly if the TICK was a re-sample that is not low short of the release event, or another position's
with Releasing before it. -/
def Obligations.ReleasingBeginsAndEndsAtResamples : Prop :=
  ∀ (c : Lines) (s : State), DebounceInv s → ∃ t, exec (.tick c) s = .next t ∧
    (Releasing t ↔
      (s.fsm = .pushed ∧ AtKey s ∧ ¬ LowSample c s ∧ 2 ≤ s.relCnt.toNat) ∨ (Releasing s ∧ ¬ AtKey s))

/-! ### Invariants (spec/10_state.md section 8, spec/44_buzzer_driver.md) -/

/-- The reset state meets the three invariants. -/
def Obligations.ResetMeetsTheInvariants : Prop :=
  DebounceInv State.reset ∧ SelectInv State.reset ∧ BuzzerInv State.reset

/-- Every step, under any word, keeps the debounce invariant, from every state that has it. -/
def Obligations.EveryStepKeepsTheDebounceInvariant : Prop :=
  ∀ s t : State, DebounceInv s → step s = .next t → DebounceInv t

/-- Every step keeps the select lines equal and one-hot; after a TICK they are those of the phase the TICK began with,
`((phase - 1) mod 16) div 4` in terms of the new phase. -/
def Obligations.EveryStepKeepsTheSelectLines : Prop :=
  (∀ s t : State, SelectInv s → step s = .next t → SelectInv t) ∧
  (∀ (w : Opw) (s : State), TicksIn w → ∃ t, stepWord w s = .next t ∧ t.rowSel = t.digSel ∧
    ∀ j, j < 4 → (t.rowSel.getLsbD j = true ↔ j = ((t.phase.toNat + 15) % 16) / 4))

/-- Every step keeps the buzzer invariant: level 0 outside PUSHED, the parity of the distance from the key in PUSHED. -/
def Obligations.EveryStepKeepsTheBuzzerInvariant : Prop :=
  ∀ s t : State, BuzzerInv s → step s = .next t → BuzzerInv t

/-- R36: in every state reachable from reset by any sequence of words. -/
def Obligations.ReachableDebounceStates : Prop :=
  ∀ ws : List Opw, ∃ t, runWords ws State.reset = .next t ∧
    (t.fsm = .idle → t.detCnt.toNat = 0 ∧ t.relCnt.toNat = 0) ∧
    (t.fsm = .detecting → 1 ≤ t.detCnt.toNat ∧ t.detCnt.toNat ≤ 32 ∧ t.relCnt.toNat = 0) ∧
    (t.fsm = .pushed → t.detCnt.toNat = 0 ∧ 1 ≤ t.relCnt.toNat ∧ t.relCnt.toNat ≤ 32) ∧
    (t.fsm = .detecting ↔ t.detCnt.toNat ≠ 0) ∧ (t.fsm = .pushed ↔ t.relCnt.toNat ≠ 0) ∧ fsmCode t.fsm ≠ 0b11

/-- A step that leaves `fsm` outside PUSHED holds the buzzer's level, unless it is a RESET; that level is 0 in every reachable state, which
R182 infers ("By rule R181 the held level is 0 in every state reachable from reset"); a RESET forces 0. -/
def Obligations.SilenceIsLevelZero : Prop :=
  (∀ (w : Opw) (s : State), fieldRst w = false →
    ∃ t, stepWord w s = .next t ∧ (t.fsm ≠ .pushed → t.buzzer = s.buzzer)) ∧
  (∀ ws : List Opw, ∃ t, runWords ws State.reset = .next t ∧ (t.fsm ≠ .pushed → t.buzzer = false)) ∧
  (∀ s : State, ∃ t, exec .reset s = .next t ∧ t.buzzer = false)

/-! ### Runs: sweeps, events, windows -/

/-- R10: with no other reset in between, the TICK numbered `n` after a reset runs with `phase = n mod 16`. -/
def Obligations.TickNumberIsThePhase : Prop :=
  ∀ (ws : List Opw) (s : State), NoReset ws →
    ∃ t, runWords (encode .reset :: ws) s = .next t ∧ t.phase.toNat = tickCount ws % 16

/-- R108: any 16 consecutive TICKs sample each position exactly once, the TICK at phase `p` renders digit `p div 4`, and after 16 TICKs
the phase is back. -/
def Obligations.ASweepVisitsEveryPositionOnce : Prop :=
  ∀ (cols : Nat → Lines) (s : State),
    (∀ p : Position, ∃ j, j < 16 ∧ (∃ t, ticks cols j s = .next t ∧ t.phase = p) ∧
      ∀ k, k < 16 → (∃ t, ticks cols k s = .next t ∧ t.phase = p) → k = j) ∧
    (∀ n, ∃ t u, ticks cols n s = .next t ∧ ticks cols (n + 1) s = .next u ∧
      ∀ d, d < 4 → (u.digSel.getLsbD d = true ↔ 4 * d ≤ t.phase.toNat ∧ t.phase.toNat ≤ 4 * d + 3)) ∧
    (∃ t, ticks cols 16 s = .next t ∧ t.phase = s.phase)

/-- A push event needs 33 low samples of one position and comes exactly 512 TICKs after the first observation: until then the block is
in DETECTING with that key code and an unchanged flag, whatever the samples of the other positions are. -/
def Obligations.PushComes512TicksAfterTheFirstObservation : Prop :=
  ∀ (cols : Nat → Lines) (s : State), s.fsm = .idle →
    (∀ j, j ≤ 32 → (cols (16 * j)).getLsbD (s.phase.toNat % 4) = false) →
    (∀ n, 1 ≤ n → n ≤ 512 → ∃ t, ticks cols n s = .next t ∧ t.fsm = .detecting ∧ t.keyCode = s.phase ∧
      t.pushConfirmed = s.pushConfirmed) ∧
    (∃ t, ticks cols 513 s = .next t ∧ t.fsm = .pushed ∧ t.keyCode = s.phase ∧ t.pushConfirmed = true ∧ t.relCnt = 32)

/-- A first observation followed by fewer than 32 low re-samples and one that is not low gives no push event: the flag is never
touched and the block is back in IDLE at that re-sample. -/
def Obligations.FewerThan32LowResamplesNeverConfirm : Prop :=
  ∀ (cols : Nat → Lines) (s : State) (n : Nat), s.fsm = .idle → n ≤ 31 →
    (∀ j, j ≤ n → (cols (16 * j)).getLsbD (s.phase.toNat % 4) = false) →
    (cols (16 * (n + 1))).getLsbD (s.phase.toNat % 4) = true →
    (∀ m, m ≤ 16 * (n + 1) + 1 → ∃ t, ticks cols m s = .next t ∧ t.pushConfirmed = s.pushConfirmed ∧ t.fsm ≠ .pushed) ∧
    (∃ t, ticks cols (16 * (n + 1) + 1) s = .next t ∧ t.fsm = .idle ∧ t.detCnt = 0 ∧ t.keyCode = s.phase)

/-- After a push event, or after a low re-sample of the held key, exactly 32 consecutive re-samples that are not low give the release
event, at the 32nd of them, 512 TICKs later, and not before. -/
def Obligations.ReleaseComesAtThe32ndHighResample : Prop :=
  ∀ (cols : Nat → Lines) (s : State),
    (PushEvent (cols 0) s ∨ (s.fsm = .pushed ∧ AtKey s ∧ LowSample (cols 0) s)) →
    (∀ j, 1 ≤ j → j ≤ 32 → (cols (16 * j)).getLsbD (s.phase.toNat % 4) = true) →
    (∀ n, 1 ≤ n → n ≤ 512 → ∃ t, ticks cols n s = .next t ∧ t.fsm = .pushed ∧ t.keyCode = s.keyCode ∧
      t.releaseConfirmed = s.releaseConfirmed) ∧
    (∃ t, ticks cols 513 s = .next t ∧ t.fsm = .idle ∧ t.detCnt = 0 ∧ t.relCnt = 0 ∧ t.keyCode = s.keyCode ∧
      t.releaseConfirmed = true)

/-- Push events and release events alternate over any run without RESET, a push event first unless a key is held at its start. -/
def Obligations.PushAndReleaseEventsAlternate : Prop :=
  ∀ (ws : List Opw) (s : State), NoReset ws →
    (s.fsm ≠ .pushed → Alternates .push (events ws s)) ∧ (s.fsm = .pushed → Alternates .release (events ws s))

/-- Mutual exclusion: in PUSHED for key K, over any run without RESET, as long as no event has happened the block stays in PUSHED for K
with `key_code` = K, and the first event can only be a release. -/
def Obligations.AHeldKeyMasksTheOthers : Prop :=
  ∀ (ws : List Opw) (s : State), NoReset ws → s.fsm = .pushed →
    ∃ t, runWords ws s = .next t ∧ (events ws s = [] → t.fsm = .pushed ∧ t.keyCode = s.keyCode) ∧
      (∀ e rest, events ws s = e :: rest → e = .release)

/-- The key-code window: over any run without RESET that performs at most 512 TICKs after the one of a push event, `key_code` is still
the confirmed key. -/
def Obligations.KeyCodeHoldsFor512TicksAfterThePush : Prop :=
  ∀ (w : Opw) (ws : List Opw) (s : State), TicksIn w → PushEvent (fieldColN w) s → NoReset ws → tickCount ws ≤ 512 →
    ∃ t, runWords (w :: ws) s = .next t ∧ t.keyCode = s.keyCode

/-- Events of one kind are at least 1025 TICKs apart, and a push event comes at least 513 TICKs after a release event, over any run
without RESET. -/
def Obligations.EventsOfOneKindAre1025TicksApart : Prop :=
  ∀ (w : Opw) (ws : List Opw) (s t : State), TicksIn w → NoReset ws → stepWord w s = .next t →
    (PushEvent (fieldColN w) s → tickCount ws ≤ 1024 → Event.push ∉ events ws t) ∧
    (ReleaseEvent (fieldColN w) s → tickCount ws ≤ 1024 → Event.release ∉ events ws t) ∧
    (ReleaseEvent (fieldColN w) s → tickCount ws ≤ 512 → Event.push ∉ events ws t)

/-- From any state in PUSHED on, if the block stays in PUSHED for `n` TICKs and leaves it with the next: that TICK samples the key, so its
number agrees with the distance to the key modulo 16, and it sets the release flag; each of the `n` TICKs toggles the buzzer and
that one does not. (Right after a push event the distance is 15, so the number of toggles since then is odd, and with the toggle of
the push event itself even: the level is back to what it was.) -/
def Obligations.TheBuzzerTogglesFromPushToRelease : Prop :=
  ∀ (cols : Nat → Lines) (s : State) (n : Nat),
    (∀ m, m ≤ n → ∃ t, ticks cols m s = .next t ∧ t.fsm = .pushed) →
    (∃ u, ticks cols (n + 1) s = .next u ∧ u.fsm ≠ .pushed) →
    n % 16 = (s.keyCode - s.phase).toNat ∧
      (∀ m, m ≤ n → ∃ t, ticks cols m s = .next t ∧ t.buzzer = xor s.buzzer (decide (m % 2 = 1))) ∧
      (∃ u, ticks cols (n + 1) s = .next u ∧ u.fsm = .idle ∧ u.releaseConfirmed = true ∧
        u.buzzer = xor s.buzzer (decide (n % 2 = 1)))

/-! ### The surroundings (spec/70 R251, R252, spec/45 R197, spec/41 R120, R124) -/

/-- R251: an ideal keypad answers `col_n[c] = 0` iff `4 * (p div 4) + c` is in `K`, so the sample is low iff `p` is in `K`. -/
def Obligations.IdealKeypadReadsLowAtClosedKeys : Prop :=
  ∀ (K : List Position) (p : Position),
    (∀ c, c < 4 → ((idealColumns K p).getLsbD c = false ↔ BitVec.ofNat 4 (4 * (p.toNat / 4) + c) ∈ K)) ∧
    (∀ s : State, s.phase = p → (LowSample (idealColumns K p) s ↔ p ∈ K))

/-- A key held on an ideal keypad from IDLE on is first observed within 16 TICKs and confirmed, with its key code, exactly 512 TICKs
after that. -/
def Obligations.AHeldKeyIsConfirmed : Prop :=
  ∀ (k : Position) (s : State), s.fsm = .idle → ∃ n, n < 16 ∧
    (∃ t, ticksAt [k] n s = .next t ∧ t.fsm = .idle ∧ t.phase = k) ∧
    (∃ t, ticksAt [k] (n + 1) s = .next t ∧ t.fsm = .detecting ∧ t.keyCode = k ∧ t.detCnt = 32) ∧
    (∃ t, ticksAt [k] (n + 512) s = .next t ∧ t.fsm = .detecting ∧ t.pushConfirmed = s.pushConfirmed) ∧
    (∃ t, ticksAt [k] (n + 513) s = .next t ∧ t.fsm = .pushed ∧ t.keyCode = k ∧ t.pushConfirmed = true)

/-- With no key closed from reset on, no flag is ever set, the block stays in IDLE and the buzzer stays 0. -/
def Obligations.NoKeyNoEvent : Prop :=
  ∀ n, ∃ t, ticksAt [] n State.reset = .next t ∧ t.fsm = .idle ∧ t.pushConfirmed = false ∧ t.releaseConfirmed = false ∧
    t.buzzer = false

/-- Beside the reference host, from every state of the two in which slots 1 to 3 are blank and slot 0 is blank or a digit, every move (a
TICK under any column lines, or the host's, clearing in any way) keeps that, and a TICK shows slot 0 in phases 0 to 3 and nothing in
phases 4 to 15. So it is after any interleaving of moves from reset. The host's write puts the key code's glyph into slot 0. That the
host reads the key code on the move that writes it is the model's choice (log entry 8). -/
def Obligations.TheReferenceHostShowsOneDigit : Prop :=
  (∀ (y : Closed) (m : Move), OneDigitInv y.block.dispBuf → ∃ z, moveClosed m y = .next z ∧ OneDigitInv z.block.dispBuf) ∧
  (∀ (y : Closed) (c : Lines), OneDigitInv y.block.dispBuf → ∃ z, moveClosed (.tick c) y = .next z ∧
    (4 ≤ y.block.phase.toNat → z.block.seg = 0x00) ∧
    (y.block.phase.toNat < 4 → z.block.seg = segPattern (readSlot y.block.dispBuf 0))) ∧
  (∀ ms : List Move, ∃ y, runClosed ms ⟨.waitingForPush, State.reset⟩ = .next y ∧ OneDigitInv y.block.dispBuf) ∧
  (∀ (s : State) (way : ClearWay), ∃ z, moveClosed (.host way) ⟨.aboutToWrite, s⟩ = .next z ∧ z.host = .waitingForRelease ∧
    (readSlot z.block.dispBuf 0).toNat = s.keyCode.toNat)

/-- The reference host clears both flags, in one word or in two in either order, and then waits for the next push; with a TICK (under
any column lines) between the two words, the flag cleared first is 1 again exactly if its event happened in that TICK. -/
def Obligations.TheReferenceHostClearsBothFlags : Prop :=
  (∀ s : State, ∃ z, moveClosed (.host .oneWord) ⟨.aboutToClear, s⟩ = .next z ∧ z.host = .waitingForPush ∧
    z.block = { s with pushConfirmed := false, releaseConfirmed := false }) ∧
  (∀ (s : State) (way other : ClearWay), way ≠ .oneWord →
    ∃ z, runClosed [.host way, .host other] ⟨.aboutToClear, s⟩ = .next z ∧ z.host = .waitingForPush ∧
      z.block = { s with pushConfirmed := false, releaseConfirmed := false }) ∧
  (∀ (s : State) (c : Lines) (other : ClearWay),
    ∃ z, runClosed [.host .pushFirst, .tick c, .host other] ⟨.aboutToClear, s⟩ = .next z ∧ z.host = .waitingForPush ∧
      z.block.releaseConfirmed = false ∧ (z.block.pushConfirmed = true ↔ PushEvent c s)) ∧
  (∀ (s : State) (c : Lines) (other : ClearWay),
    ∃ z, runClosed [.host .releaseFirst, .tick c, .host other] ⟨.aboutToClear, s⟩ = .next z ∧ z.host = .waitingForPush ∧
      z.block.pushConfirmed = false ∧ (z.block.releaseConfirmed = true ↔ ReleaseEvent c s))

/-! ### What is seen from outside (spec/10 R34, spec/30 R85, spec/45 R190) -/

/-- R34, R190: STATUS bit 0 is `push_confirmed`, bit 1 `release_confirmed`, KEYCODE is `key_code`, and the host reads the registers
themselves and nothing else; CLRP clears bit 0 alone, CLRR bit 1 alone, and no host word sets a bit or changes KEYCODE; the tick engine
only sets bits of STATUS and never writes DISP0 to DISP3, which WRD writes; the reset values are 0b00, 0 and 16 each. -/
def Obligations.TheHostReadsTheRegistersThemselves : Prop :=
  (∀ s : State, (statusRegister s).getLsbD 0 = s.pushConfirmed ∧ (statusRegister s).getLsbD 1 = s.releaseConfirmed ∧
    keycodeRegister s = s.keyCode ∧ hostRead s = (statusRegister s, s.keyCode)) ∧
  (∀ s u : State, s.pushConfirmed = u.pushConfirmed → s.releaseConfirmed = u.releaseConfirmed → s.keyCode = u.keyCode →
    hostRead s = hostRead u) ∧
  (∀ s : State, ∃ t, exec .clrp s = .next t ∧ hostRead t = (statusRegister s &&& 0b10, s.keyCode)) ∧
  (∀ s : State, ∃ t, exec .clrr s = .next t ∧ hostRead t = (statusRegister s &&& 0b01, s.keyCode)) ∧
  (∀ (w : Opw) (s : State), fieldRst w = false → fieldTick w = false →
    ∃ t, stepWord w s = .next t ∧ statusRegister t &&& ~~~ statusRegister s = 0 ∧ keycodeRegister t = keycodeRegister s) ∧
  (∀ (c : Lines) (s : State), ∃ t, exec (.tick c) s = .next t ∧ statusRegister s &&& ~~~ statusRegister t = 0 ∧
    t.dispBuf = s.dispBuf) ∧
  (∀ (i : Index) (g : Glyph) (s : State), ∃ t, exec (.wrd i g) s = .next t ∧ readSlot t.dispBuf i = g ∧
    hostRead t = hostRead s) ∧
  (∀ s : State, ∃ t, exec .reset s = .next t ∧ hostRead t = (0b00, 0) ∧ ∀ i, readSlot t.dispBuf i = 16)

/-- The pins (section 1 of spec/30_encoding.md): the input pins of a step are the fields of its word, each at its bits, and the output
pins are the registers themselves, so a word without RESET and TICK changes none of the board's. -/
def Obligations.ThePinsAreTheRegistersThemselves : Prop :=
  (∀ s : State, boardPins s = (s.rowSel, s.digSel, s.seg, s.buzzer)) ∧
  (∀ (w : Opw) (s : State), fieldRst w = false → fieldTick w = false →
    ∃ t, stepWord w s = .next t ∧ boardPins t = boardPins s) ∧
  (∀ (r t : Bool) (c : Lines) (a b d : Bool) (i : Index) (g : Glyph),
    let w := assemble r t c a b d i g
    w.getLsbD 15 = r ∧ w.getLsbD 14 = t ∧ w.extractLsb' 10 4 = c ∧ w.getLsbD 9 = a ∧ w.getLsbD 8 = b ∧
      w.getLsbD 7 = d ∧ w.extractLsb' 5 2 = i ∧ w.extractLsb' 0 5 = g)
end

