-- ==== Sys2Proof/Laws/Decode.lean ====
section
/-! SUPPORT. The fields of an assembled word, and what the decoder answers. -/

namespace Sys2Proof

variable (r t : Bool) (c : Lines) (a b d : Bool) (i : Index) (g : Glyph)

@[simp] theorem fieldRst_assemble : fieldRst (assemble r t c a b d i g) = r := by
  simp only [fieldRst, assemble, BitVec.getLsbD_append]
  simp

@[simp] theorem fieldTick_assemble : fieldTick (assemble r t c a b d i g) = t := by
  simp only [fieldTick, assemble, BitVec.getLsbD_append]
  simp

@[simp] theorem fieldClrPush_assemble : fieldClrPush (assemble r t c a b d i g) = a := by
  simp only [fieldClrPush, assemble, BitVec.getLsbD_append]
  simp

@[simp] theorem fieldClrRelease_assemble : fieldClrRelease (assemble r t c a b d i g) = b := by
  simp only [fieldClrRelease, assemble, BitVec.getLsbD_append]
  simp

@[simp] theorem fieldDispWe_assemble : fieldDispWe (assemble r t c a b d i g) = d := by
  simp only [fieldDispWe, assemble, BitVec.getLsbD_append]
  simp

@[simp] theorem fieldColN_assemble : fieldColN (assemble r t c a b d i g) = c := by
  apply BitVec.eq_of_getLsbD_eq
  intro j hj
  simp only [fieldColN, assemble, BitVec.getLsbD_extractLsb', BitVec.getLsbD_append]
  interval_cases j <;> simp

@[simp] theorem fieldDispIdx_assemble : fieldDispIdx (assemble r t c a b d i g) = i := by
  apply BitVec.eq_of_getLsbD_eq
  intro j hj
  simp only [fieldDispIdx, assemble, BitVec.getLsbD_extractLsb', BitVec.getLsbD_append]
  interval_cases j <;> simp

@[simp] theorem fieldDispData_assemble : fieldDispData (assemble r t c a b d i g) = g := by
  apply BitVec.eq_of_getLsbD_eq
  intro j hj
  simp only [fieldDispData, assemble, BitVec.getLsbD_extractLsb', BitVec.getLsbD_append]
  interval_cases j <;> simp

/-- A bit under the mask is the bit of the match. -/
theorem getLsbD_of_mask {w m v : Opw} (h : w &&& m = v) {k : Nat} (hm : m.getLsbD k = true) : w.getLsbD k = v.getLsbD k := by
  rw [← h, BitVec.getLsbD_and, hm, Bool.and_true]

/-- A word has a match under a mask if it has it bit by bit. -/
theorem mask_of_getLsbD {w m v : Opw} (h : ∀ k, k < 16 → (w.getLsbD k && m.getLsbD k) = v.getLsbD k) : w &&& m = v := by
  apply BitVec.eq_of_getLsbD_eq
  intro k hk
  rw [BitVec.getLsbD_and]
  exact h k hk

/-- With `rst` the word is RESET whatever else it holds (R71). -/
theorem decodeWord_reset {w : Opw} (h : fieldRst w = true) : decodeWord w = [.reset] := by
  simp [decodeWord, h]

/-- A word with no strobe is NOP (R71, R77). -/
theorem decodeWord_nop {w : Opw} (hr : fieldRst w = false) (ht : fieldTick w = false) (ha : fieldClrPush w = false)
    (hb : fieldClrRelease w = false) (hd : fieldDispWe w = false) : decodeWord w = [.nop] := by
  simp [decodeWord, strobedOps, hr, ht, ha, hb, hd]

end Sys2Proof
end

