-- ==== Sys2Proof/Laws/State.lean ====
section
/-! SUPPORT. What each named update of the state leaves in each field, so that no proof unfolds a record update. -/

namespace Sys2Proof.Machine

variable (s : State)

/-! ### setPush -/

@[simp] theorem setPush_phase : (setPush s).phase = s.phase := rfl
@[simp] theorem setPush_fsm : (setPush s).fsm = s.fsm := rfl
@[simp] theorem setPush_detCnt : (setPush s).detCnt = s.detCnt := rfl
@[simp] theorem setPush_relCnt : (setPush s).relCnt = s.relCnt := rfl
@[simp] theorem setPush_keyCode : (setPush s).keyCode = s.keyCode := rfl
@[simp] theorem setPush_pushConfirmed : (setPush s).pushConfirmed = true := rfl
@[simp] theorem setPush_releaseConfirmed : (setPush s).releaseConfirmed = s.releaseConfirmed := rfl
@[simp] theorem setPush_dispBuf : (setPush s).dispBuf = s.dispBuf := rfl
@[simp] theorem setPush_rowSel : (setPush s).rowSel = s.rowSel := rfl
@[simp] theorem setPush_digSel : (setPush s).digSel = s.digSel := rfl
@[simp] theorem setPush_seg : (setPush s).seg = s.seg := rfl
@[simp] theorem setPush_buzzer : (setPush s).buzzer = s.buzzer := rfl
@[simp] theorem setPush_inputs : (setPush s).inputs = s.inputs := rfl
@[simp] theorem setPush_draws : (setPush s).draws = s.draws := rfl

/-! ### setRelease -/

@[simp] theorem setRelease_phase : (setRelease s).phase = s.phase := rfl
@[simp] theorem setRelease_fsm : (setRelease s).fsm = s.fsm := rfl
@[simp] theorem setRelease_detCnt : (setRelease s).detCnt = s.detCnt := rfl
@[simp] theorem setRelease_relCnt : (setRelease s).relCnt = s.relCnt := rfl
@[simp] theorem setRelease_keyCode : (setRelease s).keyCode = s.keyCode := rfl
@[simp] theorem setRelease_pushConfirmed : (setRelease s).pushConfirmed = s.pushConfirmed := rfl
@[simp] theorem setRelease_releaseConfirmed : (setRelease s).releaseConfirmed = true := rfl
@[simp] theorem setRelease_dispBuf : (setRelease s).dispBuf = s.dispBuf := rfl
@[simp] theorem setRelease_rowSel : (setRelease s).rowSel = s.rowSel := rfl
@[simp] theorem setRelease_digSel : (setRelease s).digSel = s.digSel := rfl
@[simp] theorem setRelease_seg : (setRelease s).seg = s.seg := rfl
@[simp] theorem setRelease_buzzer : (setRelease s).buzzer = s.buzzer := rfl
@[simp] theorem setRelease_inputs : (setRelease s).inputs = s.inputs := rfl
@[simp] theorem setRelease_draws : (setRelease s).draws = s.draws := rfl

/-! ### clearPush -/

@[simp] theorem clearPush_phase : (clearPush s).phase = s.phase := rfl
@[simp] theorem clearPush_fsm : (clearPush s).fsm = s.fsm := rfl
@[simp] theorem clearPush_detCnt : (clearPush s).detCnt = s.detCnt := rfl
@[simp] theorem clearPush_relCnt : (clearPush s).relCnt = s.relCnt := rfl
@[simp] theorem clearPush_keyCode : (clearPush s).keyCode = s.keyCode := rfl
@[simp] theorem clearPush_pushConfirmed : (clearPush s).pushConfirmed = false := rfl
@[simp] theorem clearPush_releaseConfirmed : (clearPush s).releaseConfirmed = s.releaseConfirmed := rfl
@[simp] theorem clearPush_dispBuf : (clearPush s).dispBuf = s.dispBuf := rfl
@[simp] theorem clearPush_rowSel : (clearPush s).rowSel = s.rowSel := rfl
@[simp] theorem clearPush_digSel : (clearPush s).digSel = s.digSel := rfl
@[simp] theorem clearPush_seg : (clearPush s).seg = s.seg := rfl
@[simp] theorem clearPush_buzzer : (clearPush s).buzzer = s.buzzer := rfl
@[simp] theorem clearPush_inputs : (clearPush s).inputs = s.inputs := rfl
@[simp] theorem clearPush_draws : (clearPush s).draws = s.draws := rfl

/-! ### clearRelease -/

@[simp] theorem clearRelease_phase : (clearRelease s).phase = s.phase := rfl
@[simp] theorem clearRelease_fsm : (clearRelease s).fsm = s.fsm := rfl
@[simp] theorem clearRelease_detCnt : (clearRelease s).detCnt = s.detCnt := rfl
@[simp] theorem clearRelease_relCnt : (clearRelease s).relCnt = s.relCnt := rfl
@[simp] theorem clearRelease_keyCode : (clearRelease s).keyCode = s.keyCode := rfl
@[simp] theorem clearRelease_pushConfirmed : (clearRelease s).pushConfirmed = s.pushConfirmed := rfl
@[simp] theorem clearRelease_releaseConfirmed : (clearRelease s).releaseConfirmed = false := rfl
@[simp] theorem clearRelease_dispBuf : (clearRelease s).dispBuf = s.dispBuf := rfl
@[simp] theorem clearRelease_rowSel : (clearRelease s).rowSel = s.rowSel := rfl
@[simp] theorem clearRelease_digSel : (clearRelease s).digSel = s.digSel := rfl
@[simp] theorem clearRelease_seg : (clearRelease s).seg = s.seg := rfl
@[simp] theorem clearRelease_buzzer : (clearRelease s).buzzer = s.buzzer := rfl
@[simp] theorem clearRelease_inputs : (clearRelease s).inputs = s.inputs := rfl
@[simp] theorem clearRelease_draws : (clearRelease s).draws = s.draws := rfl

/-! ### present -/

@[simp] theorem present_phase (w : Opw) : (present w s).phase = s.phase := rfl
@[simp] theorem present_fsm (w : Opw) : (present w s).fsm = s.fsm := rfl
@[simp] theorem present_detCnt (w : Opw) : (present w s).detCnt = s.detCnt := rfl
@[simp] theorem present_relCnt (w : Opw) : (present w s).relCnt = s.relCnt := rfl
@[simp] theorem present_keyCode (w : Opw) : (present w s).keyCode = s.keyCode := rfl
@[simp] theorem present_pushConfirmed (w : Opw) : (present w s).pushConfirmed = s.pushConfirmed := rfl
@[simp] theorem present_releaseConfirmed (w : Opw) : (present w s).releaseConfirmed = s.releaseConfirmed := rfl
@[simp] theorem present_dispBuf (w : Opw) : (present w s).dispBuf = s.dispBuf := rfl
@[simp] theorem present_rowSel (w : Opw) : (present w s).rowSel = s.rowSel := rfl
@[simp] theorem present_digSel (w : Opw) : (present w s).digSel = s.digSel := rfl
@[simp] theorem present_seg (w : Opw) : (present w s).seg = s.seg := rfl
@[simp] theorem present_buzzer (w : Opw) : (present w s).buzzer = s.buzzer := rfl
@[simp] theorem present_inputs (w : Opw) : (present w s).inputs = w :: s.inputs := rfl
@[simp] theorem present_draws (w : Opw) : (present w s).draws = s.draws := rfl

/-! ### resetRegisters -/

@[simp] theorem resetRegisters_phase : (resetRegisters s).phase = 0 := rfl
@[simp] theorem resetRegisters_fsm : (resetRegisters s).fsm = .idle := rfl
@[simp] theorem resetRegisters_detCnt : (resetRegisters s).detCnt = 0 := rfl
@[simp] theorem resetRegisters_relCnt : (resetRegisters s).relCnt = 0 := rfl
@[simp] theorem resetRegisters_keyCode : (resetRegisters s).keyCode = 0 := rfl
@[simp] theorem resetRegisters_pushConfirmed : (resetRegisters s).pushConfirmed = false := rfl
@[simp] theorem resetRegisters_releaseConfirmed : (resetRegisters s).releaseConfirmed = false := rfl
@[simp] theorem resetRegisters_dispBuf : (resetRegisters s).dispBuf = #v[16, 16, 16, 16] := rfl
@[simp] theorem resetRegisters_rowSel : (resetRegisters s).rowSel = 0b0001 := rfl
@[simp] theorem resetRegisters_digSel : (resetRegisters s).digSel = 0b0001 := rfl
@[simp] theorem resetRegisters_seg : (resetRegisters s).seg = 0x00 := rfl
@[simp] theorem resetRegisters_buzzer : (resetRegisters s).buzzer = false := rfl
@[simp] theorem resetRegisters_inputs : (resetRegisters s).inputs = s.inputs := rfl
@[simp] theorem resetRegisters_draws : (resetRegisters s).draws = s.draws := rfl

/-! ### storeSlot -/

@[simp] theorem storeSlot_phase (i : Index) (g : Glyph) : (storeSlot i g s).phase = s.phase := rfl
@[simp] theorem storeSlot_fsm (i : Index) (g : Glyph) : (storeSlot i g s).fsm = s.fsm := rfl
@[simp] theorem storeSlot_detCnt (i : Index) (g : Glyph) : (storeSlot i g s).detCnt = s.detCnt := rfl
@[simp] theorem storeSlot_relCnt (i : Index) (g : Glyph) : (storeSlot i g s).relCnt = s.relCnt := rfl
@[simp] theorem storeSlot_keyCode (i : Index) (g : Glyph) : (storeSlot i g s).keyCode = s.keyCode := rfl
@[simp] theorem storeSlot_pushConfirmed (i : Index) (g : Glyph) : (storeSlot i g s).pushConfirmed = s.pushConfirmed := rfl
@[simp] theorem storeSlot_releaseConfirmed (i : Index) (g : Glyph) : (storeSlot i g s).releaseConfirmed = s.releaseConfirmed := rfl
@[simp] theorem storeSlot_dispBuf (i : Index) (g : Glyph) : (storeSlot i g s).dispBuf = writeSlot s.dispBuf i g := rfl
@[simp] theorem storeSlot_rowSel (i : Index) (g : Glyph) : (storeSlot i g s).rowSel = s.rowSel := rfl
@[simp] theorem storeSlot_digSel (i : Index) (g : Glyph) : (storeSlot i g s).digSel = s.digSel := rfl
@[simp] theorem storeSlot_seg (i : Index) (g : Glyph) : (storeSlot i g s).seg = s.seg := rfl
@[simp] theorem storeSlot_buzzer (i : Index) (g : Glyph) : (storeSlot i g s).buzzer = s.buzzer := rfl
@[simp] theorem storeSlot_inputs (i : Index) (g : Glyph) : (storeSlot i g s).inputs = s.inputs := rfl
@[simp] theorem storeSlot_draws (i : Index) (g : Glyph) : (storeSlot i g s).draws = s.draws := rfl

/-! ### pushEvent -/

@[simp] theorem pushEvent_phase : (pushEvent s).phase = s.phase := rfl
@[simp] theorem pushEvent_fsm : (pushEvent s).fsm = .pushed := rfl
@[simp] theorem pushEvent_detCnt : (pushEvent s).detCnt = 0 := rfl
@[simp] theorem pushEvent_relCnt : (pushEvent s).relCnt = Config.releaseReload := rfl
@[simp] theorem pushEvent_keyCode : (pushEvent s).keyCode = s.keyCode := rfl
@[simp] theorem pushEvent_pushConfirmed : (pushEvent s).pushConfirmed = true := rfl
@[simp] theorem pushEvent_releaseConfirmed : (pushEvent s).releaseConfirmed = s.releaseConfirmed := rfl
@[simp] theorem pushEvent_dispBuf : (pushEvent s).dispBuf = s.dispBuf := rfl
@[simp] theorem pushEvent_rowSel : (pushEvent s).rowSel = s.rowSel := rfl
@[simp] theorem pushEvent_digSel : (pushEvent s).digSel = s.digSel := rfl
@[simp] theorem pushEvent_seg : (pushEvent s).seg = s.seg := rfl
@[simp] theorem pushEvent_buzzer : (pushEvent s).buzzer = s.buzzer := rfl
@[simp] theorem pushEvent_inputs : (pushEvent s).inputs = s.inputs := rfl
@[simp] theorem pushEvent_draws : (pushEvent s).draws = s.draws := rfl

/-! ### releaseEvent -/

@[simp] theorem releaseEvent_phase : (releaseEvent s).phase = s.phase := rfl
@[simp] theorem releaseEvent_fsm : (releaseEvent s).fsm = .idle := rfl
@[simp] theorem releaseEvent_detCnt : (releaseEvent s).detCnt = 0 := rfl
@[simp] theorem releaseEvent_relCnt : (releaseEvent s).relCnt = 0 := rfl
@[simp] theorem releaseEvent_keyCode : (releaseEvent s).keyCode = s.keyCode := rfl
@[simp] theorem releaseEvent_pushConfirmed : (releaseEvent s).pushConfirmed = s.pushConfirmed := rfl
@[simp] theorem releaseEvent_releaseConfirmed : (releaseEvent s).releaseConfirmed = true := rfl
@[simp] theorem releaseEvent_dispBuf : (releaseEvent s).dispBuf = s.dispBuf := rfl
@[simp] theorem releaseEvent_rowSel : (releaseEvent s).rowSel = s.rowSel := rfl
@[simp] theorem releaseEvent_digSel : (releaseEvent s).digSel = s.digSel := rfl
@[simp] theorem releaseEvent_seg : (releaseEvent s).seg = s.seg := rfl
@[simp] theorem releaseEvent_buzzer : (releaseEvent s).buzzer = s.buzzer := rfl
@[simp] theorem releaseEvent_inputs : (releaseEvent s).inputs = s.inputs := rfl
@[simp] theorem releaseEvent_draws : (releaseEvent s).draws = s.draws := rfl

/-! ### render -/

@[simp] theorem render_phase : (render s).phase = s.phase := rfl
@[simp] theorem render_fsm : (render s).fsm = s.fsm := rfl
@[simp] theorem render_detCnt : (render s).detCnt = s.detCnt := rfl
@[simp] theorem render_relCnt : (render s).relCnt = s.relCnt := rfl
@[simp] theorem render_keyCode : (render s).keyCode = s.keyCode := rfl
@[simp] theorem render_pushConfirmed : (render s).pushConfirmed = s.pushConfirmed := rfl
@[simp] theorem render_releaseConfirmed : (render s).releaseConfirmed = s.releaseConfirmed := rfl
@[simp] theorem render_dispBuf : (render s).dispBuf = s.dispBuf := rfl
@[simp] theorem render_rowSel : (render s).rowSel = onehot4 (rowOf s.phase) := rfl
@[simp] theorem render_digSel : (render s).digSel = onehot4 (rowOf s.phase) := rfl
@[simp] theorem render_seg : (render s).seg = segPattern (readSlot s.dispBuf (rowOf s.phase)) := rfl
@[simp] theorem render_buzzer : (render s).buzzer = s.buzzer := rfl
@[simp] theorem render_inputs : (render s).inputs = s.inputs := rfl
@[simp] theorem render_draws : (render s).draws = s.draws := rfl

/-! ### firstObservation -/

@[simp] theorem firstObservation_phase : (firstObservation s).phase = s.phase := rfl
@[simp] theorem firstObservation_fsm : (firstObservation s).fsm = .detecting := rfl
@[simp] theorem firstObservation_detCnt : (firstObservation s).detCnt = Config.detectReload := rfl
@[simp] theorem firstObservation_relCnt : (firstObservation s).relCnt = s.relCnt := rfl
@[simp] theorem firstObservation_keyCode : (firstObservation s).keyCode = s.phase := rfl
@[simp] theorem firstObservation_pushConfirmed : (firstObservation s).pushConfirmed = s.pushConfirmed := rfl
@[simp] theorem firstObservation_releaseConfirmed : (firstObservation s).releaseConfirmed = s.releaseConfirmed := rfl
@[simp] theorem firstObservation_dispBuf : (firstObservation s).dispBuf = s.dispBuf := rfl
@[simp] theorem firstObservation_rowSel : (firstObservation s).rowSel = s.rowSel := rfl
@[simp] theorem firstObservation_digSel : (firstObservation s).digSel = s.digSel := rfl
@[simp] theorem firstObservation_seg : (firstObservation s).seg = s.seg := rfl
@[simp] theorem firstObservation_buzzer : (firstObservation s).buzzer = s.buzzer := rfl
@[simp] theorem firstObservation_inputs : (firstObservation s).inputs = s.inputs := rfl
@[simp] theorem firstObservation_draws : (firstObservation s).draws = s.draws := rfl

/-! ### abandon -/

@[simp] theorem abandon_phase : (abandon s).phase = s.phase := rfl
@[simp] theorem abandon_fsm : (abandon s).fsm = .idle := rfl
@[simp] theorem abandon_detCnt : (abandon s).detCnt = 0 := rfl
@[simp] theorem abandon_relCnt : (abandon s).relCnt = s.relCnt := rfl
@[simp] theorem abandon_keyCode : (abandon s).keyCode = s.keyCode := rfl
@[simp] theorem abandon_pushConfirmed : (abandon s).pushConfirmed = s.pushConfirmed := rfl
@[simp] theorem abandon_releaseConfirmed : (abandon s).releaseConfirmed = s.releaseConfirmed := rfl
@[simp] theorem abandon_dispBuf : (abandon s).dispBuf = s.dispBuf := rfl
@[simp] theorem abandon_rowSel : (abandon s).rowSel = s.rowSel := rfl
@[simp] theorem abandon_digSel : (abandon s).digSel = s.digSel := rfl
@[simp] theorem abandon_seg : (abandon s).seg = s.seg := rfl
@[simp] theorem abandon_buzzer : (abandon s).buzzer = s.buzzer := rfl
@[simp] theorem abandon_inputs : (abandon s).inputs = s.inputs := rfl
@[simp] theorem abandon_draws : (abandon s).draws = s.draws := rfl

/-! ### countDetect -/

@[simp] theorem countDetect_phase : (countDetect s).phase = s.phase := rfl
@[simp] theorem countDetect_fsm : (countDetect s).fsm = s.fsm := rfl
@[simp] theorem countDetect_detCnt : (countDetect s).detCnt = s.detCnt - 1 := rfl
@[simp] theorem countDetect_relCnt : (countDetect s).relCnt = s.relCnt := rfl
@[simp] theorem countDetect_keyCode : (countDetect s).keyCode = s.keyCode := rfl
@[simp] theorem countDetect_pushConfirmed : (countDetect s).pushConfirmed = s.pushConfirmed := rfl
@[simp] theorem countDetect_releaseConfirmed : (countDetect s).releaseConfirmed = s.releaseConfirmed := rfl
@[simp] theorem countDetect_dispBuf : (countDetect s).dispBuf = s.dispBuf := rfl
@[simp] theorem countDetect_rowSel : (countDetect s).rowSel = s.rowSel := rfl
@[simp] theorem countDetect_digSel : (countDetect s).digSel = s.digSel := rfl
@[simp] theorem countDetect_seg : (countDetect s).seg = s.seg := rfl
@[simp] theorem countDetect_buzzer : (countDetect s).buzzer = s.buzzer := rfl
@[simp] theorem countDetect_inputs : (countDetect s).inputs = s.inputs := rfl
@[simp] theorem countDetect_draws : (countDetect s).draws = s.draws := rfl

/-! ### reloadRelease -/

@[simp] theorem reloadRelease_phase : (reloadRelease s).phase = s.phase := rfl
@[simp] theorem reloadRelease_fsm : (reloadRelease s).fsm = s.fsm := rfl
@[simp] theorem reloadRelease_detCnt : (reloadRelease s).detCnt = s.detCnt := rfl
@[simp] theorem reloadRelease_relCnt : (reloadRelease s).relCnt = Config.releaseReload := rfl
@[simp] theorem reloadRelease_keyCode : (reloadRelease s).keyCode = s.keyCode := rfl
@[simp] theorem reloadRelease_pushConfirmed : (reloadRelease s).pushConfirmed = s.pushConfirmed := rfl
@[simp] theorem reloadRelease_releaseConfirmed : (reloadRelease s).releaseConfirmed = s.releaseConfirmed := rfl
@[simp] theorem reloadRelease_dispBuf : (reloadRelease s).dispBuf = s.dispBuf := rfl
@[simp] theorem reloadRelease_rowSel : (reloadRelease s).rowSel = s.rowSel := rfl
@[simp] theorem reloadRelease_digSel : (reloadRelease s).digSel = s.digSel := rfl
@[simp] theorem reloadRelease_seg : (reloadRelease s).seg = s.seg := rfl
@[simp] theorem reloadRelease_buzzer : (reloadRelease s).buzzer = s.buzzer := rfl
@[simp] theorem reloadRelease_inputs : (reloadRelease s).inputs = s.inputs := rfl
@[simp] theorem reloadRelease_draws : (reloadRelease s).draws = s.draws := rfl

/-! ### countRelease -/

@[simp] theorem countRelease_phase : (countRelease s).phase = s.phase := rfl
@[simp] theorem countRelease_fsm : (countRelease s).fsm = s.fsm := rfl
@[simp] theorem countRelease_detCnt : (countRelease s).detCnt = s.detCnt := rfl
@[simp] theorem countRelease_relCnt : (countRelease s).relCnt = s.relCnt - 1 := rfl
@[simp] theorem countRelease_keyCode : (countRelease s).keyCode = s.keyCode := rfl
@[simp] theorem countRelease_pushConfirmed : (countRelease s).pushConfirmed = s.pushConfirmed := rfl
@[simp] theorem countRelease_releaseConfirmed : (countRelease s).releaseConfirmed = s.releaseConfirmed := rfl
@[simp] theorem countRelease_dispBuf : (countRelease s).dispBuf = s.dispBuf := rfl
@[simp] theorem countRelease_rowSel : (countRelease s).rowSel = s.rowSel := rfl
@[simp] theorem countRelease_digSel : (countRelease s).digSel = s.digSel := rfl
@[simp] theorem countRelease_seg : (countRelease s).seg = s.seg := rfl
@[simp] theorem countRelease_buzzer : (countRelease s).buzzer = s.buzzer := rfl
@[simp] theorem countRelease_inputs : (countRelease s).inputs = s.inputs := rfl
@[simp] theorem countRelease_draws : (countRelease s).draws = s.draws := rfl

/-! ### advance -/

@[simp] theorem advance_phase : (advance s).phase = nextPhase s.phase := rfl
@[simp] theorem advance_fsm : (advance s).fsm = s.fsm := rfl
@[simp] theorem advance_detCnt : (advance s).detCnt = s.detCnt := rfl
@[simp] theorem advance_relCnt : (advance s).relCnt = s.relCnt := rfl
@[simp] theorem advance_keyCode : (advance s).keyCode = s.keyCode := rfl
@[simp] theorem advance_pushConfirmed : (advance s).pushConfirmed = s.pushConfirmed := rfl
@[simp] theorem advance_releaseConfirmed : (advance s).releaseConfirmed = s.releaseConfirmed := rfl
@[simp] theorem advance_dispBuf : (advance s).dispBuf = s.dispBuf := rfl
@[simp] theorem advance_rowSel : (advance s).rowSel = s.rowSel := rfl
@[simp] theorem advance_digSel : (advance s).digSel = s.digSel := rfl
@[simp] theorem advance_seg : (advance s).seg = s.seg := rfl
@[simp] theorem advance_buzzer : (advance s).buzzer = s.buzzer := rfl
@[simp] theorem advance_inputs : (advance s).inputs = s.inputs := rfl
@[simp] theorem advance_draws : (advance s).draws = s.draws := rfl

/-! ### The state after reset, every field (R39) -/

@[simp] theorem reset_phase : State.reset.phase = 0 := rfl
@[simp] theorem reset_fsm : State.reset.fsm = .idle := rfl
@[simp] theorem reset_detCnt : State.reset.detCnt = 0 := rfl
@[simp] theorem reset_relCnt : State.reset.relCnt = 0 := rfl
@[simp] theorem reset_keyCode : State.reset.keyCode = 0 := rfl
@[simp] theorem reset_pushConfirmed : State.reset.pushConfirmed = false := rfl
@[simp] theorem reset_releaseConfirmed : State.reset.releaseConfirmed = false := rfl
@[simp] theorem reset_dispBuf : State.reset.dispBuf = Vector.replicate (delta% Config.nDigits) Config.glyphBlank := rfl
@[simp] theorem reset_rowSel : State.reset.rowSel = 0b0001 := rfl
@[simp] theorem reset_digSel : State.reset.digSel = 0b0001 := rfl
@[simp] theorem reset_seg : State.reset.seg = 0x00 := rfl
@[simp] theorem reset_buzzer : State.reset.buzzer = false := rfl
@[simp] theorem reset_inputs : State.reset.inputs = [] := rfl
@[simp] theorem reset_draws : State.reset.draws = 0 := rfl

end Sys2Proof.Machine
end

