-- ==== Sys2Proof/Laws/Operands.lean ====
section
/-! SUPPORT. What the operand functions compute, said once: rows and columns as quotient and remainder, the one-hot select, the
sample, the display slots, the segment look-up. -/

namespace Sys2Proof.Machine

/-- `phase div 4` (R78). -/
theorem rowOf_toNat : ∀ p : Position, (rowOf p).toNat = p.toNat / 4 := by decide

/-- `phase mod 4` (R78). -/
theorem columnOf_toNat : ∀ p : Position, (columnOf p).toNat = p.toNat % 4 := by decide

/-- A position is the key code of its row and column (R79). -/
theorem positionAt_rowOf_columnOf : ∀ p : Position, positionAt (rowOf p) (columnOf p) = p := by decide

/-- A key code is `4 * row + column` (R79). -/
theorem positionAt_toNat : ∀ r c : Index, (positionAt r c).toNat = 4 * r.toNat + c.toNat := by decide

/-- Bit `j` of the select is 1 iff `j` is the selected line (R81). -/
theorem onehot4_getLsbD : ∀ i j : Index, (onehot4 i).getLsbD j.toNat = decide (i = j) := by decide

/-- The sample of R150, read as a column number. -/
theorem sampleLow_iff (p : Position) (colN : Lines) :
    sampleLow p colN = true ↔ colN.getLsbD (p.toNat % 4) = false := by
  simp [sampleLow, columnOf_toNat]

theorem sampleLow_eq (p : Position) (colN : Lines) : sampleLow p colN = !colN.getLsbD (p.toNat % 4) := by
  simp [sampleLow, columnOf_toNat]

/-- The position after `p` is the wrapping sum, `PHASE_W` bits holding exactly `N_PHASES` values (R107). -/
@[simp] theorem nextPhase_eq : ∀ p : Position, nextPhase p = p + 1 := by decide

/-- `PHASE_W` is derived from `N_PHASES` (R6). -/
theorem phaseW_holds_nPhases : 2 ^ Config.phaseW = Config.nPhases := rfl

/-- The slots after reset are blank (R39). -/
@[simp] theorem readSlot_blank (i : Index) :
    readSlot (Vector.replicate (delta% Config.nDigits) Config.glyphBlank) i = Config.glyphBlank :=
  Vector.getElem_replicate _

/-- The slot just written reads as written. -/
@[simp] theorem readSlot_writeSlot_same (d : DispBuf) (i : Index) (g : Glyph) :
    readSlot (writeSlot d i g) i = g := by
  exact Vector.getElem_set_self _

/-- A write leaves every other slot as it was. -/
theorem readSlot_writeSlot_other (d : DispBuf) {i j : Index} (g : Glyph) (h : j ≠ i) :
    readSlot (writeSlot d i g) j = readSlot d j := by
  exact Vector.getElem_set_ne _ _ fun he => h (BitVec.eq_of_toNat_eq he.symm)

/-- A digit has the pattern the table gives it (R130). -/
theorem segPattern_digit {g : Glyph} (h : g.toNat ≤ 15) : segPattern g = Config.segTable (g.setWidth 4) := by
  simp [segPattern, segLookup, h]

/-- Every code above 15 is shown as blank (R131, R133). -/
theorem segPattern_blank {g : Glyph} (h : ¬ g.toNat ≤ 15) : segPattern g = 0x00 := by
  simp [segPattern, segLookup, h, Config.segBlank]

/-- The three encodings of `fsm` are read back (R83). -/
theorem fsmOfCode_fsmCode (f : Fsm) : fsmOfCode (fsmCode f) = some f := by
  cases f <;> rfl

end Sys2Proof.Machine
end

