-- ==== Sys2Proof/Laws/Tick.lean ====
section
/-! SUPPORT. What SCAN, BUZZ and TICK can do, said once. -/

namespace Sys2Proof.Machine

/-! ### SCAN -/

/-- SCAN takes exactly one of these arms (R152 to R161). -/
theorem scan_cases (colN : Lines) (s : State) :
    (s.fsm = .idle ∧ sampleLow s.phase colN = false ∧ scan colN s = s) ∨
    (s.fsm = .idle ∧ sampleLow s.phase colN = true ∧ scan colN s = firstObservation s) ∨
    (s.fsm ≠ .idle ∧ s.phase ≠ s.keyCode ∧ scan colN s = s) ∨
    (s.fsm = .detecting ∧ s.phase = s.keyCode ∧ sampleLow s.phase colN = false ∧ scan colN s = abandon s) ∨
    (s.fsm = .detecting ∧ s.phase = s.keyCode ∧ sampleLow s.phase colN = true ∧ s.detCnt ≤ 1 ∧ scan colN s = pushEvent s) ∨
    (s.fsm = .detecting ∧ s.phase = s.keyCode ∧ sampleLow s.phase colN = true ∧ ¬ s.detCnt ≤ 1 ∧
      scan colN s = countDetect s) ∨
    (s.fsm = .pushed ∧ s.phase = s.keyCode ∧ sampleLow s.phase colN = true ∧ scan colN s = reloadRelease s) ∨
    (s.fsm = .pushed ∧ s.phase = s.keyCode ∧ sampleLow s.phase colN = false ∧ s.relCnt ≤ 1 ∧
      scan colN s = releaseEvent s) ∨
    (s.fsm = .pushed ∧ s.phase = s.keyCode ∧ sampleLow s.phase colN = false ∧ ¬ s.relCnt ≤ 1 ∧
      scan colN s = countRelease s) := by
  unfold scan resampleDetecting resamplePushed
  cases hf : s.fsm with
  | idle => cases hl : sampleLow s.phase colN <;> simp
  | detecting =>
    by_cases hk : s.phase = s.keyCode
    · cases hl : sampleLow s.phase colN
      · simp [hk]
      · by_cases hd : s.detCnt ≤ 1#6 <;> simp [hk, hd, -BitVec.not_le]
    · simp [hk]
  | pushed =>
    by_cases hk : s.phase = s.keyCode
    · cases hl : sampleLow s.phase colN
      · by_cases hr : s.relCnt ≤ 1#6 <;> simp [hk, hr, -BitVec.not_le]
      · simp [hk]
    · simp [hk]

/-! Each arm as an equation. -/

theorem scan_idle_high {c : Lines} {s : State} (hf : s.fsm = .idle) (hl : sampleLow s.phase c = false) :
    scan c s = s := by simp [scan, hf, hl]

theorem scan_idle_low {c : Lines} {s : State} (hf : s.fsm = .idle) (hl : sampleLow s.phase c = true) :
    scan c s = firstObservation s := by simp [scan, hf, hl]

theorem scan_other {c : Lines} {s : State} (hf : s.fsm ≠ .idle) (hk : s.phase ≠ s.keyCode) : scan c s = s := by
  cases h : s.fsm <;> simp_all [scan]

theorem scan_detecting {c : Lines} {s : State} (hf : s.fsm = .detecting) (hk : s.phase = s.keyCode) :
    scan c s = resampleDetecting (sampleLow s.phase c) s := by simp [scan, hf, hk]

theorem scan_pushed {c : Lines} {s : State} (hf : s.fsm = .pushed) (hk : s.phase = s.keyCode) :
    scan c s = resamplePushed (sampleLow s.phase c) s := by simp [scan, hf, hk]

/-- SCAN computes from `phase`, `fsm`, the counters and `key_code` alone; the flags it only sets. -/
theorem scan_congr {c d : Lines} {s u : State} (hp : s.phase = u.phase) (hf : s.fsm = u.fsm) (hd : s.detCnt = u.detCnt)
    (hr : s.relCnt = u.relCnt) (hk : s.keyCode = u.keyCode) (hl : sampleLow s.phase c = sampleLow s.phase d) :
    (scan c s).fsm = (scan d u).fsm ∧ (scan c s).detCnt = (scan d u).detCnt ∧ (scan c s).relCnt = (scan d u).relCnt ∧
      (scan c s).keyCode = (scan d u).keyCode := by
  obtain ⟨p, f⟩ := s
  obtain ⟨q, g⟩ := u
  simp only at hp hf hd hr hk hl
  subst hp hf hd hr hk
  cases f <;> simp only [scan, resampleDetecting, resamplePushed, hl] <;> split_ifs <;> simp_all

/-- SCAN writes the debounce state, `key_code` and the flags, nothing else (R162). -/
theorem scan_frame (colN : Lines) (s : State) :
    (scan colN s).phase = s.phase ∧ (scan colN s).dispBuf = s.dispBuf ∧ (scan colN s).rowSel = s.rowSel ∧
      (scan colN s).digSel = s.digSel ∧ (scan colN s).seg = s.seg ∧ (scan colN s).buzzer = s.buzzer ∧
      (scan colN s).inputs = s.inputs ∧ (scan colN s).draws = s.draws := by
  obtain h | h | h | h | h | h | h | h | h := scan_cases colN s <;> simp [h]

@[simp] theorem scan_phase (colN : Lines) (s : State) : (scan colN s).phase = s.phase := (scan_frame colN s).1
@[simp] theorem scan_dispBuf (colN : Lines) (s : State) : (scan colN s).dispBuf = s.dispBuf := (scan_frame colN s).2.1
@[simp] theorem scan_rowSel (colN : Lines) (s : State) : (scan colN s).rowSel = s.rowSel := (scan_frame colN s).2.2.1
@[simp] theorem scan_digSel (colN : Lines) (s : State) : (scan colN s).digSel = s.digSel := (scan_frame colN s).2.2.2.1
@[simp] theorem scan_seg (colN : Lines) (s : State) : (scan colN s).seg = s.seg := (scan_frame colN s).2.2.2.2.1
@[simp] theorem scan_buzzer (colN : Lines) (s : State) : (scan colN s).buzzer = s.buzzer :=
  (scan_frame colN s).2.2.2.2.2.1
@[simp] theorem scan_inputs (colN : Lines) (s : State) : (scan colN s).inputs = s.inputs :=
  (scan_frame colN s).2.2.2.2.2.2.1
@[simp] theorem scan_draws (colN : Lines) (s : State) : (scan colN s).draws = s.draws :=
  (scan_frame colN s).2.2.2.2.2.2.2

/-! ### BUZZ -/

/-- BUZZ writes `buzzer` alone (R180). -/
theorem buzz_eq (s : State) :
    buzz s = { s with buzzer := if s.fsm = .pushed then !s.buzzer else s.buzzer } := by
  unfold buzz
  split <;> rfl

/-! ### TICK, field by field. `scan colN s` is SCAN alone, which does not see what RENDER writes. -/

/-- RENDER and SCAN do not see each other (R101). -/
theorem scan_render (colN : Lines) (s : State) : scan colN (render s) = render (scan colN s) := by
  unfold scan resampleDetecting resamplePushed
  simp only [render_fsm, render_phase, render_keyCode, render_detCnt, render_relCnt]
  cases s.fsm <;> dsimp only <;> simp only [apply_ite render] <;> rfl

@[simp] theorem tick_phase (c : Lines) (s : State) : (tick c s).phase = s.phase + 1 := by simp [tick, buzz_eq]
@[simp] theorem tick_fsm (c : Lines) (s : State) : (tick c s).fsm = (scan c s).fsm := by
  simp [tick, buzz_eq, scan_render]
@[simp] theorem tick_detCnt (c : Lines) (s : State) : (tick c s).detCnt = (scan c s).detCnt := by
  simp [tick, buzz_eq, scan_render]
@[simp] theorem tick_relCnt (c : Lines) (s : State) : (tick c s).relCnt = (scan c s).relCnt := by
  simp [tick, buzz_eq, scan_render]
@[simp] theorem tick_keyCode (c : Lines) (s : State) : (tick c s).keyCode = (scan c s).keyCode := by
  simp [tick, buzz_eq, scan_render]
@[simp] theorem tick_pushConfirmed (c : Lines) (s : State) : (tick c s).pushConfirmed = (scan c s).pushConfirmed := by
  simp [tick, buzz_eq, scan_render]
@[simp] theorem tick_releaseConfirmed (c : Lines) (s : State) :
    (tick c s).releaseConfirmed = (scan c s).releaseConfirmed := by
  simp [tick, buzz_eq, scan_render]
@[simp] theorem tick_dispBuf (c : Lines) (s : State) : (tick c s).dispBuf = s.dispBuf := by simp [tick, buzz_eq]
@[simp] theorem tick_rowSel (c : Lines) (s : State) : (tick c s).rowSel = onehot4 (rowOf s.phase) := by
  simp [tick, buzz_eq]
@[simp] theorem tick_digSel (c : Lines) (s : State) : (tick c s).digSel = onehot4 (rowOf s.phase) := by
  simp [tick, buzz_eq]
@[simp] theorem tick_seg (c : Lines) (s : State) :
    (tick c s).seg = segPattern (readSlot s.dispBuf (rowOf s.phase)) := by simp [tick, buzz_eq]
@[simp] theorem tick_buzzer (c : Lines) (s : State) :
    (tick c s).buzzer = if (scan c s).fsm = .pushed then !s.buzzer else s.buzzer := by
  simp [tick, buzz_eq, scan_render]
@[simp] theorem tick_inputs (c : Lines) (s : State) : (tick c s).inputs = s.inputs := by simp [tick, buzz_eq]
@[simp] theorem tick_draws (c : Lines) (s : State) : (tick c s).draws = s.draws := by simp [tick, buzz_eq]

end Sys2Proof.Machine
end

