-- ==== Sys2Proof/Laws/Exec.lean ====
section
/-! SUPPORT. What one operation, the operations of a word, and a step answer. -/

namespace Sys2Proof.Machine

/-! ### One operation -/

@[simp] theorem exec_reset (s : State) : exec .reset s = .next (resetRegisters s) := rfl
@[simp] theorem exec_tick (c : Lines) (s : State) : exec (.tick c) s = .next (tick c s) := rfl
@[simp] theorem exec_clrp (s : State) : exec .clrp s = .next (clearPush s) := rfl
@[simp] theorem exec_clrr (s : State) : exec .clrr s = .next (clearRelease s) := rfl
@[simp] theorem exec_wrd (i : Index) (g : Glyph) (s : State) : exec (.wrd i g) s = .next (storeSlot i g s) := rfl
@[simp] theorem exec_nop (s : State) : exec .nop s = .next s := rfl

/-! ### Operations one after another -/

@[simp] theorem andThen_next (s : State) (f : State → Host.Outcome State Fault Refusal) : andThen (.next s) f = f s := rfl
@[simp] theorem execAll_nil (s : State) : execAll [] s = .next s := rfl
@[simp] theorem execAll_cons (i : Instr) (ops : List Instr) (s : State) :
    execAll (i :: ops) s = andThen (exec i s) (execAll ops) := rfl

/-- What follows a sequence of operations runs on what the sequence left. -/
theorem execAll_append (xs ys : List Instr) (s : State) :
    execAll (xs ++ ys) s = andThen (execAll xs s) (execAll ys) := by
  induction xs generalizing s with
  | nil => rfl
  | cons x xs ih => cases x <;> simp [ih]

@[simp] theorem runWords_nil (s : State) : runWords [] s = .next s := rfl
@[simp] theorem runWords_cons (w : Opw) (ws : List Opw) (s : State) :
    runWords (w :: ws) s = andThen (stepWord w s) (runWords ws) := rfl

/-! ### One word -/

/-- The state the strobes below `rst` lead to, as R106 writes it. -/
def strobed (w : Opw) (s : State) : State :=
  let s1 := if fieldClrPush w then clearPush s else s
  let s2 := if fieldClrRelease w then clearRelease s1 else s1
  let s3 := if fieldDispWe w then storeSlot (fieldDispIdx w) (fieldDispData w) s2 else s2
  if fieldTick w then tick (fieldColN w) s3 else s3

/-- A word with `rst` resets the registers (R105). -/
theorem stepWord_reset {w : Opw} (h : fieldRst w = true) (s : State) : stepWord w s = .next (resetRegisters s) := by
  simp [stepWord, decodeWord_reset h]

/-- A word without `rst` performs its strobes in order (R106). -/
theorem stepWord_strobed {w : Opw} (h : fieldRst w = false) (s : State) : stepWord w s = .next (strobed w s) := by
  unfold stepWord decodeWord strobedOps strobed
  cases fieldClrPush w <;> cases fieldClrRelease w <;> cases fieldDispWe w <;> cases fieldTick w <;> simp [h]

/-- `fetch` takes the first word listed, or a free one where none is. -/
theorem fetch_cases (s : State) :
    (∃ w rest, s.inputs = w :: rest ∧ fetch s = (w, { s with inputs := rest })) ∨
    (s.inputs = [] ∧ fetch s = (Config.freeOpw s.draws, { s with draws := s.draws + 1 })) := by
  unfold fetch
  cases h : s.inputs with
  | nil => exact .inr ⟨rfl, rfl⟩
  | cons w rest => exact .inl ⟨w, rest, rfl, rfl⟩

end Sys2Proof.Machine
end

