-- ==== Sys2Proof/Laws/PerInstr.lean ====
section
/-! SUPPORT. Per-instruction family `TableRow`: every operation stands alone in a word (spec/30_encoding.md R71, R84), and the word
written for it has its row's `match` under its row's `mask` (R72 to R77). -/

namespace Sys2Proof.Laws.TableRow

/-- The `mask` of the row of spec/opcode_table.json. -/
def rowMask (i : Instr) : Opw :=
  match i with
  | .reset => 0x8000
  | .tick _ => 0xC000
  | .clrp => 0x8200
  | .clrr => 0x8100
  | .wrd _ _ => 0x8080
  | .nop => 0xC380

/-- The `match` of the row of spec/opcode_table.json. -/
def rowMatch (i : Instr) : Opw :=
  match i with
  | .reset => 0x8000
  | .tick _ => 0x4000
  | .clrp => 0x0200
  | .clrr => 0x0100
  | .wrd _ _ => 0x0080
  | .nop => 0x0000

def Statement (i : Instr) : Prop := wellFormed i = true ∧ encode i &&& rowMask i = rowMatch i

theorem reset : Statement .reset := by unfold Statement; decide
theorem tick (colN : Lines) : Statement (.tick colN) := by
  unfold Statement; revert colN; decide
theorem clrp : Statement .clrp := by unfold Statement; decide
theorem clrr : Statement .clrr := by unfold Statement; decide
theorem wrd (i : Index) (g : Glyph) : Statement (.wrd i g) := by
  unfold Statement; revert i g; decide
theorem nop : Statement .nop := by unfold Statement; decide

end Sys2Proof.Laws.TableRow
end

