-- ==== Sys2Proof/Laws/RefHost.lean ====
section
/-! SUPPORT. What a move of the block and the reference host answers, and runs over moves. -/

namespace Sys2Proof.Machine

/-- A move is the step under its word, and the host's next place. -/
theorem moveClosed_of_stepWord {m : Move} {y : Closed} {t : State} (h : stepWord (moveWord m y) y.block = .next t) :
    moveClosed m y = .next ⟨moveHost m y, t⟩ := by
  simp [moveClosed, h]

/-- A TICK leaves the host where it is. -/
@[simp] theorem moveClosed_tick (c : Lines) (y : Closed) : moveClosed (.tick c) y = .next ⟨y.host, tick c y.block⟩ :=
  moveClosed_of_stepWord (by simp [moveWord, encode, stepWord_strobed, strobed])

/-- What a move of the host does to the block: nothing where it waits, one WRD or its clears elsewhere. -/
def hostEffect (h : HostPc) (way : ClearWay) (s : State) : State :=
  match h with
  | .waitingForPush => s
  | .aboutToWrite => storeSlot 0 (keyChar s.keyCode) s
  | .waitingForRelease => s
  | .aboutToClear =>
    match way with
    | .oneWord => clearRelease (clearPush s)
    | .pushFirst => clearPush s
    | .releaseFirst => clearRelease s
  | .owesReleaseClear => clearRelease s
  | .owesPushClear => clearPush s

@[simp] theorem moveClosed_host (way : ClearWay) (y : Closed) :
    moveClosed (.host way) y = .next ⟨hostNext y.host way y.block, hostEffect y.host way y.block⟩ := by
  refine moveClosed_of_stepWord ?_
  obtain ⟨h, s⟩ := y
  cases h <;> cases way <;>
    simp [moveWord, hostWord, hostEffect, encode, encodeOps, tickLines, slotWrite, stepWord_strobed, strobed]

@[simp] theorem runClosed_nil (y : Closed) : runClosed [] y = .next y := rfl

theorem runClosed_cons_of_next {m : Move} {ms : List Move} {y z : Closed} (h : moveClosed m y = .next z) :
    runClosed (m :: ms) y = runClosed ms z := by
  simp [runClosed, h]

@[simp] theorem runClosed_cons_tick (c : Lines) (ms : List Move) (y : Closed) :
    runClosed (.tick c :: ms) y = runClosed ms ⟨y.host, tick c y.block⟩ := runClosed_cons_of_next (moveClosed_tick c y)

@[simp] theorem runClosed_cons_host (way : ClearWay) (ms : List Move) (y : Closed) :
    runClosed (.host way :: ms) y = runClosed ms ⟨hostNext y.host way y.block, hostEffect y.host way y.block⟩ :=
  runClosed_cons_of_next (moveClosed_host way y)

end Sys2Proof.Machine
end

