-- ==== Sys2Proof/Laws/Run.lean ====
section
/-! SUPPORT. What a word without RESET does to the scanner and the flags, what any word keeps, and that runs never stop. -/

namespace Sys2Proof.Machine

theorem lowSample_iff (c : Lines) (s : State) : LowSample c s ↔ sampleLow s.phase c = true := (sampleLow_iff _ _).symm

theorem toNat_le_one_iff (x : Count) : x.toNat ≤ 1 ↔ x ≤ 1 := by
  rw [BitVec.le_def]
  rfl

/-- The scanner's registers after a word without RESET: as before if it has no TICK, else those SCAN and ADVANCE leave. -/
theorem strobed_scanner (w : Opw) (s : State) :
    (fieldTick w = false →
      (strobed w s).phase = s.phase ∧ (strobed w s).fsm = s.fsm ∧ (strobed w s).detCnt = s.detCnt ∧
        (strobed w s).relCnt = s.relCnt ∧ (strobed w s).keyCode = s.keyCode) ∧
    (fieldTick w = true →
      (strobed w s).phase = s.phase + 1 ∧ (strobed w s).fsm = (scan (fieldColN w) s).fsm ∧
        (strobed w s).detCnt = (scan (fieldColN w) s).detCnt ∧ (strobed w s).relCnt = (scan (fieldColN w) s).relCnt ∧
        (strobed w s).keyCode = (scan (fieldColN w) s).keyCode) := by
  unfold strobed
  constructor <;> intro h <;>
  cases fieldClrPush w <;> cases fieldClrRelease w <;> cases fieldDispWe w <;>
    simp only [h, ite_true, ite_false, Bool.false_eq_true] <;> simp <;> exact scan_congr rfl rfl rfl rfl rfl rfl

/-- SCAN sets each flag on its event and clears none (R156, R160, R162). -/
theorem scan_flags (c : Lines) (s : State) :
    ((scan c s).pushConfirmed = true ↔ PushEvent c s ∨ s.pushConfirmed = true) ∧
      ((scan c s).releaseConfirmed = true ↔ ReleaseEvent c s ∨ s.releaseConfirmed = true) := by
  simp only [PushEvent, ReleaseEvent, lowSample_iff, AtKey, toNat_le_one_iff]
  obtain ⟨h1, h2, h3⟩ | ⟨h1, h2, h3⟩ | ⟨h1, h2, h3⟩ | ⟨h1, h2, h3, h4⟩ | ⟨h1, h2, h3, h4, h5⟩ | ⟨h1, h2, h3, h4, h5⟩ |
    ⟨h1, h2, h3, h4⟩ | ⟨h1, h2, h3, h4, h5⟩ | ⟨h1, h2, h3, h4, h5⟩ := scan_cases c s <;> simp_all [-BitVec.not_le]

/-- A property that the operations keep, and RESET establishes, every word keeps. -/
theorem stepWord_keeps (P : State → Prop) (hReset : ∀ s, P (resetRegisters s)) (hPush : ∀ s, P s → P (clearPush s))
    (hRelease : ∀ s, P s → P (clearRelease s)) (hSlot : ∀ s i g, P s → P (storeSlot i g s))
    (hTick : ∀ s c, P s → P (tick c s)) {w : Opw} {s t : State} (hs : P s) (h : stepWord w s = .next t) : P t := by
  cases hw : fieldRst w with
  | true =>
    rw [stepWord_reset hw] at h
    cases h
    exact hReset s
  | false =>
    rw [stepWord_strobed hw] at h
    cases h
    have h1 : P (if fieldClrPush w then clearPush s else s) := by
      split
      · exact hPush _ hs
      · exact hs
    have h2 : ∀ u, P u → P (if fieldClrRelease w then clearRelease u else u) := by
      intro u hu
      split
      · exact hRelease _ hu
      · exact hu
    have h3 : ∀ u, P u → P (if fieldDispWe w then storeSlot (fieldDispIdx w) (fieldDispData w) u else u) := by
      intro u hu
      split
      · exact hSlot _ _ _ hu
      · exact hu
    have h4 : ∀ u, P u → P (if fieldTick w then tick (fieldColN w) u else u) := by
      intro u hu
      split
      · exact hTick _ _ hu
      · exact hu
    exact h4 _ (h3 _ (h2 _ h1))

/-- A run from a state with `P` ends in one, if every word keeps `P`. -/
theorem runWords_keeps (P : State → Prop) (hStep : ∀ (w : Opw) (s t : State), P s → stepWord w s = .next t → P t)
    (ws : List Opw) (s : State) (hs : P s) : ∃ t, runWords ws s = .next t ∧ P t := by
  induction ws generalizing s with
  | nil => exact ⟨s, rfl, hs⟩
  | cons w ws ih =>
    obtain ⟨t, ht⟩ : ∃ t, stepWord w s = .next t := by
      cases h : fieldRst w with
      | true => exact ⟨_, stepWord_reset h s⟩
      | false => exact ⟨_, stepWord_strobed h s⟩
    simp only [runWords_cons, ht, andThen_next]
    exact ih t (hStep w s t hs ht)

/-- `n` TICKs add `n` to the phase. -/
theorem ticks_phase (cols : Nat → Lines) (n : Nat) (s : State) :
    ∃ t, ticks cols n s = .next t ∧ t.phase = s.phase + BitVec.ofNat 4 n := by
  induction n with
  | zero => exact ⟨s, rfl, by simp⟩
  | succ n ih =>
    obtain ⟨t, ht, hp⟩ := ih
    exact ⟨tick (cols n) t, by simp [ticks, ht], by simp [hp, BitVec.ofNat_add, BitVec.add_assoc]⟩

end Sys2Proof.Machine
end

