-- ==== Sys2Proof/Tests/Slice0.lean ====
section
/-! SUPPORT. Tests, expected results taken from spec/30_encoding.md and the vectors of spec/95_test_vectors.md; and for each obligation
with hypotheses a concrete instance that meets them. -/

namespace Sys2Proof.Tests

open Sys2Proof Sys2Proof.Machine

/-! ### Helpers -/

/-- The next state, if there is one. -/
def nextOf (o : Host.Outcome State Fault Refusal) : Option State :=
  match o with
  | .next t => some t
  | .fault _ => none
  | .refused _ => none

/-- A state of the vectors: phase, machine, counters, key; the rest as after reset. -/
def at_ (p : Position) (f : Fsm) (d r : Count) (k : Position) : State :=
  { State.reset with phase := p, fsm := f, detCnt := d, relCnt := r, keyCode := k }

/-- The fields the vectors of section 2.1 list: phase, machine, counters, key, flags, buzzer. -/
def vector (s : State) : (Position × Fsm × Count × Count) × Position × Bool × Bool × Bool :=
  ((s.phase, s.fsm, s.detCnt, s.relCnt), s.keyCode, s.pushConfirmed, s.releaseConfirmed, s.buzzer)

/-! ### Ill-formed lists of operations: each check refuses one -/

theorem test_wf_refuses_no_operation : someOperation [] = false ∧ wellFormedOps [] = false := by decide
theorem test_wf_refuses_reset_with_another :
    aloneWhereNeeded [.reset, .tick 0] = false ∧ wellFormedOps [.reset, .tick 0] = false := by decide
theorem test_wf_refuses_nop_with_another :
    aloneWhereNeeded [.nop, .clrp] = false ∧ wellFormedOps [.nop, .clrp] = false := by decide
theorem test_wf_refuses_tick_first :
    inStepOrder [.tick 0, .clrp] = false ∧ wellFormedOps [.tick 0, .clrp] = false := by decide
theorem test_wf_refuses_twice : inStepOrder [.clrr, .clrr] = false ∧ wellFormedOps [.clrr, .clrr] = false := by decide

/-! ### Words written out bit by bit from R70, R72 to R77 -/

theorem test_decode_reset : decodeWord 0b1000000000000000 = [.reset] := by decide
theorem test_decode_tick : decodeWord 0b0111010000000000 = [.tick 0b1101] := by decide
theorem test_decode_clrp : decodeWord 0b0011111000000000 = [.clrp] := by decide
theorem test_decode_clrr : decodeWord 0b0011110100000000 = [.clrr] := by decide
theorem test_decode_wrd : decodeWord 0b0011110011101010 = [.wrd 3 10] := by decide
theorem test_decode_nop : decodeWord 0b0010000001111111 = [.nop] := by decide
theorem test_decode_several : decodeWord 0b0111111110101010 = [.clrp, .clrr, .wrd 1 10, .tick 0b1111] := by decide
theorem test_encode_notation :
    encode .reset = 0x8000 ∧ encode .nop = 0x3C00 ∧ encode (.tick 0b1101) = 0x7400 ∧ encode .clrp = 0x3E00 ∧
      encode .clrr = 0x3D00 ∧ encodeOps [.clrp, .clrr] = 0x3F00 ∧ encode (.wrd 0 10) = 0x3C8A ∧
      encodeOps [.clrp, .clrr, .tick 0b1111] = 0x7F00 := by decide
theorem test_table_rows :
    decodeTableWord 16 0x8000 = some .reset ∧ decodeTableWord 16 0x4000 = some (.tick 0) ∧
      decodeTableWord 16 0x0200 = some .clrp ∧ decodeTableWord 16 0x0100 = some .clrr ∧
      decodeTableWord 16 0x0080 = some (.wrd 0 0) ∧ decodeTableWord 16 0x0000 = some .nop ∧
      decodeTableWord 32 0 = none := by decide

/-! ### One step each -/

/-- V14: the push event, and the buzzer of the same tick. -/
theorem test_tick_push_event :
    (nextOf (stepWord 0x5C00 (at_ 7 .detecting 1 0 7))).map vector =
      some ((8, .pushed, 0, 32), 7, true, false, true) := by decide

/-- V22: the release event; the buzzer of the same tick does not toggle. -/
theorem test_tick_release_event :
    (nextOf (stepWord 0x7C00 { at_ 7 .pushed 0 1 7 with pushConfirmed := true })).map vector =
      some ((8, .idle, 0, 0), 7, true, true, false) := by decide

/-- V30 and V33: digit 2 shows glyph 10 of the default table, glyph 17 is blank. -/
theorem test_seg_default_table :
    segLookup Config.segTableDefault 10 = 0x77 ∧ segLookup Config.segTableDefault 15 = 0x71 ∧
      segLookup Config.segTableDefault 16 = 0x00 ∧ segLookup Config.segTableDefault 17 = 0x00 ∧
      segLookup Config.segTableDefault 31 = 0x00 := by decide

/-- V60: CLRP clears one flag. -/
theorem test_clrp :
    (nextOf (stepWord 0x3E00 { at_ 0 .idle 0 0 9 with pushConfirmed := true, releaseConfirmed := true })).map vector =
      some ((0, .idle, 0, 0), 9, false, true, false) := by decide

/-- V73: the clear comes first, the release event's set wins. -/
theorem test_clrr_with_release_event :
    (nextOf (stepWord 0x7D00 { at_ 7 .pushed 0 1 7 with releaseConfirmed := true })).map vector =
      some ((8, .idle, 0, 0), 7, false, true, false) := by decide

/-- V66: slot 3 is stored as written. -/
theorem test_wrd_slot3 :
    (nextOf (stepWord 0x3CFF State.reset)).map (fun t => t.dispBuf) = some #v[16, 16, 16, 31] := by decide

/-- V70: the write is seen by the RENDER of the same step. -/
theorem test_wrd_then_tick (h : Config.segTable 10 = 0x77) :
    (nextOf (stepWord 0x7C8A State.reset)).map (fun t => (t.phase, t.rowSel, t.seg)) = some (1, 0b0001, 0x77) := by
  show some ((1 : Position), (0b0001 : Lines), Config.segTable 10) = _
  rw [h]

/-- V81: `rst` overrides every strobe. -/
theorem test_reset_overrides :
    nextOf (stepWord 0xFFFF { at_ 7 .pushed 0 1 7 with buzzer := true, dispBuf := #v[1, 2, 3, 4] }) = some State.reset := by
  decide

/-- V85: don't-care bits without a strobe. -/
theorem test_nop : nextOf (stepWord 0x207F (at_ 7 .pushed 0 1 7)) = some (at_ 7 .pushed 0 1 7) := by decide

/-- The placed word is the one the next step runs. -/
theorem test_fetch_word :
    (nextOf (step (State.reset.withFetchWord 16 0x3C8A))).map (fun t => (t.dispBuf, t.inputs)) =
      some (#v[10, 16, 16, 16], []) := by decide

/-- R34: STATUS bit 0 is the push flag, bit 1 the release flag. -/
theorem test_status :
    statusRegister { State.reset with pushConfirmed := true } = 0b01 ∧
      statusRegister { State.reset with releaseConfirmed := true } = 0b10 := by decide

/-- R86: the columns of TICK@(2,9) in row 0 and row 2. -/
theorem test_ideal_columns : idealColumns [2, 9] 0 = 0b1011 ∧ idealColumns [2, 9] 8 = 0b1101 := by decide

/-! ### The hypotheses of the obligations are met -/

theorem witness_DecodeOfEncodeIsTheSame :
    wellFormed (.wrd 3 31) = true ∧ wellFormedOps [.clrp, .clrr, .wrd 3 31, .tick 0] = true ∧
      wellFormedOps [.reset] = true ∧ wellFormedOps [.nop] = true := by decide

/-- A glyph of 17 and one of 31 rendered in the step that writes them; two words that differ in unread bits: without strobes, with
RESET, with TICK, with WRD. -/
theorem witness_UnreadBitsAreDontCare :
    (TicksIn 0x7CFF ∧ fieldDispWe 0x7CFF = true ∧ fieldDispIdx 0x7CFF = rowOf (at_ 12 .idle 0 0 0).phase ∧
      17 ≤ (fieldDispData 0x7CFF).toNat) ∧
    (TicksIn 0x7C91 ∧ fieldDispWe 0x7C91 = true ∧ fieldDispIdx 0x7C91 = rowOf State.reset.phase ∧
      17 ≤ (fieldDispData 0x7C91).toNat) ∧
    (fieldRst 0x0000 = fieldRst 0x3C7F ∧ fieldTick 0x0000 = fieldTick 0x3C7F ∧ fieldClrPush 0x0000 = fieldClrPush 0x3C7F ∧
      fieldClrRelease 0x0000 = fieldClrRelease 0x3C7F ∧ fieldDispWe 0x0000 = fieldDispWe 0x3C7F ∧
      fieldTick 0x0000 = false ∧ fieldDispWe 0x0000 = false) ∧
    fieldRst 0x8000 = fieldRst 0xFFFF ∧
    (fieldTick 0x7400 = fieldTick 0x747F ∧ fieldColN 0x7400 = fieldColN 0x747F ∧ fieldDispWe 0x747F = false) ∧
    (fieldDispWe 0x008A = fieldDispWe 0x3C8A ∧ fieldDispIdx 0x008A = fieldDispIdx 0x3C8A ∧
      fieldDispData 0x008A = fieldDispData 0x3C8A) := by decide

theorem witness_StepRunsTheDecodedOperation :
    { State.reset with inputs := [0x3E00] }.inputs = 0x3E00 :: [] ∧ decodeWord 0x3E00 = [.clrp] ∧
      wellFormed .clrp = true ∧ State.reset.inputs = [] := by decide

theorem witness_StepIsTheSpecsStepFunction :
    (0x8000 : Opw).getLsbD 15 = true ∧ (0x7FFF : Opw).getLsbD 15 = false ∧
      nextOf (runWords [0x3E00] State.reset) = some State.reset := by decide

theorem witness_NopChangesNothing : (0x3C7F : Opw) &&& 0xC380 = 0x0000 := by decide

theorem witness_ClrpClearsThePushFlagAlone :
    State.reset.pushConfirmed = false ∧
    (TicksIn 0x5E00 ∧ fieldClrPush 0x5E00 = true ∧ PushEvent (fieldColN 0x5E00) (at_ 7 .detecting 1 0 7)) ∧
    ¬ (TicksIn 0x7C00 ∧ PushEvent (fieldColN 0x7C00) State.reset) := by decide

theorem witness_ClrrClearsTheReleaseFlagAlone :
    State.reset.releaseConfirmed = false ∧
    (TicksIn 0x7D00 ∧ fieldClrRelease 0x7D00 = true ∧ ReleaseEvent (fieldColN 0x7D00) (at_ 7 .pushed 0 1 7)) ∧
    ¬ (TicksIn 0x7C00 ∧ ReleaseEvent (fieldColN 0x7C00) State.reset) := by decide

theorem witness_WrdWritesOneSlotWhole :
    (3 : Index) ≠ 0 ∧ (TicksIn 0x7CFF ∧ fieldDispWe 0x7CFF = true ∧ fieldDispIdx 0x7CFF = rowOf (at_ 12 .idle 0 0 0).phase) ∧
      (at_ 3 .idle 0 0 0).phase.toNat ≤ 3 := by decide

theorem witness_HostOperationsNeverTouchTheScanner :
    fieldRst 0x3FFF = false ∧ fieldTick 0x3FFF = false ∧ fieldClrPush 0x3FFF = true ∧ fieldDispWe 0x3FFF = true := by decide

theorem witness_HostNeverInfluencesTheScanner :
    List.Forall₂ SameForScanner [0x7FFF, 0x3FFF] [0x7C00, 0x0000] ∧
      SameScanner State.reset { State.reset with pushConfirmed := true, dispBuf := #v[1, 2, 3, 4] } := by
  refine ⟨.cons (by decide) (.cons (by decide) .nil), by decide⟩

theorem witness_WithoutTicksTheBlockHolds : NoReset [0x3FFF, 0x3C00] ∧ tickCount [0x3FFF, 0x3C00] = 0 :=
  ⟨by simp [NoReset, fieldRst], by decide⟩

/-- A digit slot at the boundary 15, the blank at 16. -/
theorem witness_RenderSelectsOneDigitAndShowsItsSlot :
    (readSlot #v[15, 16, 31, 0] (BitVec.ofNat 2 (0 / 4))).toNat ≤ 15 ∧
      16 ≤ (readSlot #v[15, 16, 31, 0] (BitVec.ofNat 2 (7 / 4))).toNat ∧
      16 ≤ (readSlot #v[15, 16, 31, 0] (BitVec.ofNat 2 (8 / 4))).toNat := by decide

theorem witness_SegLooksUpOrBlanks : (15 : Glyph).toNat ≤ 15 ∧ 16 ≤ (16 : Glyph).toNat ∧ 16 ≤ (31 : Glyph).toNat := by decide

theorem witness_MicroOperationsRunInOrder :
    PushEvent 0b0111 (at_ 7 .detecting 1 0 7) ∧ ReleaseEvent 0b1111 (at_ 7 .pushed 0 1 7) := by decide

theorem witness_SamplesThatDoNotCountChangeNothing :
    ((at_ 7 .idle 0 0 0).fsm = .idle ∧ ¬ LowSample 0b1000 (at_ 7 .idle 0 0 0)) ∧
    ((at_ 6 .detecting 20 0 7).fsm = .detecting ∧ ¬ AtKey (at_ 6 .detecting 20 0 7)) ∧
    ((at_ 8 .pushed 0 32 7).fsm = .pushed ∧ ¬ AtKey (at_ 8 .pushed 0 32 7)) := by decide

/-- At phase 15, the last position; and, for the scanning order, a position passed over before the one that is low. -/
theorem witness_FirstObservationStartsADetection :
    ((at_ 15 .idle 0 0 0).fsm = .idle ∧ LowSample 0b0111 (at_ 15 .idle 0 0 0)) ∧
    (∀ j, j < 1 → ((fun _ => 0b1110 : Nat → Lines) j).getLsbD (((at_ 15 .idle 0 0 0).phase.toNat + j) % 4) = true) ∧
    ((fun _ => 0b1110 : Nat → Lines) 1).getLsbD (((at_ 15 .idle 0 0 0).phase.toNat + 1) % 4) = false := by decide

/-- At the highest and at the lowest count. -/
theorem witness_AHighResampleAbandonsTheDetection :
    ((at_ 7 .detecting 32 0 7).fsm = .detecting ∧ AtKey (at_ 7 .detecting 32 0 7) ∧ ¬ LowSample 0b1111 (at_ 7 .detecting 32 0 7)) ∧
    ((at_ 7 .detecting 1 0 7).fsm = .detecting ∧ AtKey (at_ 7 .detecting 1 0 7) ∧ ¬ LowSample 0b1111 (at_ 7 .detecting 1 0 7)) ∧
    LowSample 0b1110 (tick 0b1111 (at_ 7 .detecting 1 0 7)) := by
  decide

theorem witness_TheLastLowResampleConfirmsThePush :
    PushEvent 0b0111 (at_ 7 .detecting 1 0 7) ∧ PushEvent 0b0000 (at_ 0 .detecting 0 0 0) := by decide

theorem witness_ALowResampleCountsTheDetectionDown :
    (at_ 7 .detecting 2 0 7).fsm = .detecting ∧ AtKey (at_ 7 .detecting 2 0 7) ∧ LowSample 0b0111 (at_ 7 .detecting 2 0 7) ∧
      2 ≤ (at_ 7 .detecting 2 0 7).detCnt.toNat := by decide

theorem witness_AHeldKeyReloadsTheReleaseCounter :
    (at_ 7 .pushed 0 1 7).fsm = .pushed ∧ AtKey (at_ 7 .pushed 0 1 7) ∧ LowSample 0b0111 (at_ 7 .pushed 0 1 7) := by decide

theorem witness_TheLastHighResampleConfirmsTheRelease :
    ReleaseEvent 0b1111 (at_ 7 .pushed 0 1 7) ∧ ReleaseEvent 0b1000 (at_ 7 .pushed 0 0 7) := by decide

theorem witness_AHighResampleCountsTheReleaseDown :
    (at_ 7 .pushed 0 2 7).fsm = .pushed ∧ AtKey (at_ 7 .pushed 0 2 7) ∧ ¬ LowSample 0b1111 (at_ 7 .pushed 0 2 7) ∧
      2 ≤ (at_ 7 .pushed 0 2 7).relCnt.toNat := by decide

theorem witness_OneColumnBitIsRead :
    ((at_ 7 .detecting 1 0 7).fsm = .detecting ∧ AtKey (at_ 7 .detecting 1 0 7)) ∧
    ((at_ 7 .pushed 0 0 7).fsm = .pushed ∧ AtKey (at_ 7 .pushed 0 0 7)) ∧
    (0b0111 : Lines).getLsbD ((at_ 7 .idle 0 0 0).phase.toNat % 4) = (0b0000 : Lines).getLsbD ((at_ 7 .idle 0 0 0).phase.toNat % 4) ∧
      ((at_ 6 .detecting 20 0 7).fsm ≠ .idle ∧ ¬ AtKey (at_ 6 .detecting 20 0 7)) := by decide

/-- Just before Releasing begins, and in it at the last count. -/
theorem witness_ReleasingBeginsAndEndsAtResamples :
    DebounceInv (at_ 7 .pushed 0 32 7) ∧ DebounceInv (at_ 7 .pushed 0 1 7) ∧ Releasing (at_ 8 .pushed 0 31 7) := by decide

/-- A state in DETECTING that meets the three invariants, and its step under a TICK. -/
theorem witness_EveryStepKeepsTheInvariants :
    DebounceInv { at_ 7 .detecting 1 0 7 with inputs := [0x5C00] } ∧ SelectInv { at_ 7 .detecting 1 0 7 with inputs := [0x5C00] } ∧
      BuzzerInv { at_ 7 .detecting 1 0 7 with inputs := [0x5C00] } ∧
      ∃ t, step { at_ 7 .detecting 1 0 7 with inputs := [0x5C00] } = .next t :=
  ⟨by decide, by decide, by decide, _, rfl⟩

/-- In PUSHED, one position past the key, the buzzer is 1. -/
theorem witness_BuzzerInv_pushed : BuzzerInv { at_ 8 .pushed 0 32 7 with buzzer := true } := by decide

theorem witness_EveryStepKeepsTheSelectLines_tick : TicksIn 0x7C00 ∧ ¬ TicksIn 0xC000 := by decide

theorem witness_TickNumberIsThePhase : NoReset [0x7C00, 0x3C00] ∧ tickCount [0x7C00, 0x3C00] = 1 :=
  ⟨by simp [NoReset, fieldRst], by decide⟩

theorem witness_PushComes512TicksAfterTheFirstObservation :
    State.reset.fsm = .idle ∧ ∀ j, j ≤ 32 → ((fun _ => 0 : Nat → Lines) (16 * j)).getLsbD (State.reset.phase.toNat % 4) = false := by
  simp

/-- At the bound: 31 low re-samples, then one that is not low. -/
theorem witness_FewerThan32LowResamplesNeverConfirm :
    State.reset.fsm = .idle ∧ 31 ≤ 31 ∧
    (∀ j, j ≤ 31 → ((fun n => if n = 512 then 0xF else 0 : Nat → Lines) (16 * j)).getLsbD (State.reset.phase.toNat % 4) = false) ∧
    ((fun n => if n = 512 then 0xF else 0 : Nat → Lines) (16 * (31 + 1))).getLsbD (State.reset.phase.toNat % 4) = true := by
  refine ⟨rfl, by decide, ?_, by decide⟩
  intro j hj
  show (if 16 * j = 512 then (0xF : Lines) else 0).getLsbD _ = false
  rw [if_neg (by omega)]
  rfl

/-- Either beginning: the push event, or a low re-sample of the held key. -/
theorem witness_ReleaseComesAtThe32ndHighResample :
    PushEvent ((fun n => if n = 0 then 0 else 0xF : Nat → Lines) 0) (at_ 7 .detecting 1 0 7) ∧
    (AtKey (at_ 7 .pushed 0 5 7) ∧ LowSample ((fun n => if n = 0 then 0 else 0xF : Nat → Lines) 0) (at_ 7 .pushed 0 5 7)) ∧
    ∀ j, 1 ≤ j → j ≤ 32 →
      ((fun n => if n = 0 then 0 else 0xF : Nat → Lines) (16 * j)).getLsbD ((at_ 7 .pushed 0 5 7).phase.toNat % 4) = true := by
  refine ⟨by decide, by decide, ?_⟩
  intro j h1 _
  show (if 16 * j = 0 then (0 : Lines) else 0xF).getLsbD _ = true
  rw [if_neg (by omega)]
  decide

theorem witness_PushAndReleaseEventsAlternate :
    NoReset [0x5C00] ∧ (at_ 7 .detecting 1 0 7).fsm ≠ .pushed ∧ events [0x5C00] (at_ 7 .detecting 1 0 7) = [.push] ∧
      events [0x7C00] (at_ 7 .pushed 0 1 7) = [.release] :=
  ⟨by simp [NoReset, fieldRst], by decide, by decide, by decide⟩

theorem witness_AHeldKeyMasksTheOthers :
    NoReset [0x4000] ∧ (at_ 8 .pushed 0 32 7).fsm = .pushed ∧ events [0x4000] (at_ 8 .pushed 0 32 7) = [] :=
  ⟨by simp [NoReset, fieldRst], by decide, by decide⟩

/-- At the bound of 512 TICKs. -/
theorem witness_KeyCodeHoldsFor512TicksAfterThePush :
    TicksIn 0x5C00 ∧ PushEvent (fieldColN 0x5C00) (at_ 7 .detecting 1 0 7) ∧ NoReset (List.replicate 512 0x7C00) ∧
      tickCount (List.replicate 512 0x7C00) ≤ 512 := by
  refine ⟨by decide, by decide, fun w h => ?_, ?_⟩
  · rw [List.eq_of_mem_replicate h]; rfl
  · exact (List.length_filter_le _ _).trans (by rw [List.length_replicate])

/-- At the bound of 1024 TICKs, after either event. -/
theorem witness_EventsOfOneKindAre1025TicksApart :
    (∃ t, stepWord 0x5C00 (at_ 7 .detecting 1 0 7) = .next t) ∧ PushEvent (fieldColN 0x5C00) (at_ 7 .detecting 1 0 7) ∧
      TicksIn 0x7C00 ∧ ReleaseEvent (fieldColN 0x7C00) (at_ 7 .pushed 0 1 7) ∧ NoReset (List.replicate 1024 0x7C00) ∧
      tickCount (List.replicate 1024 0x7C00) ≤ 1024 := by
  refine ⟨⟨_, rfl⟩, by decide, by decide, by decide, fun w h => ?_, ?_⟩
  · rw [List.eq_of_mem_replicate h]; rfl
  · exact (List.length_filter_le _ _).trans (by rw [List.length_replicate])

/-- The next TICK is the release event. -/
theorem witness_TheBuzzerTogglesFromPushToRelease :
    (∀ m, m ≤ 0 → ∃ t, ticks (fun _ => 0xF) m (at_ 7 .pushed 0 1 7) = .next t ∧ t.fsm = .pushed) ∧
      (∃ u, ticks (fun _ => 0xF) (0 + 1) (at_ 7 .pushed 0 1 7) = .next u ∧ u.fsm ≠ .pushed) := by
  refine ⟨fun m hm => ?_, _, rfl, by decide⟩
  obtain rfl : m = 0 := by omega
  exact ⟨_, rfl, rfl⟩

theorem witness_IdealKeypadReadsLowAtClosedKeys : (at_ 9 .idle 0 0 0).phase = 9 ∧ (3 : Nat) < 4 := by decide

theorem witness_AHeldKeyIsConfirmed : State.reset.fsm = .idle := by decide

/-- A digit in slot 0 in phase 3, the blank in slot 0 in phase 4. -/
theorem witness_TheReferenceHostShowsOneDigit :
    (OneDigitInv { at_ 3 .idle 0 0 0 with dispBuf := #v[15, 16, 16, 16] }.dispBuf ∧ (at_ 3 .idle 0 0 0).phase.toNat < 4) ∧
      (OneDigitInv (at_ 4 .idle 0 0 0).dispBuf ∧ 4 ≤ (at_ 4 .idle 0 0 0).phase.toNat) := by decide

theorem witness_TheReferenceHostClearsBothFlags : ClearWay.pushFirst ≠ .oneWord ∧ ClearWay.releaseFirst ≠ .oneWord := by
  decide

/-- A push event in the TICK between CLRP and CLRR, and none in it. -/
theorem witness_TheReferenceHostClearsBothFlags_event :
    PushEvent 0b0111 (at_ 7 .detecting 1 0 7) ∧ ¬ PushEvent 0b1111 (at_ 7 .detecting 1 0 7) ∧
      ReleaseEvent 0b1111 (at_ 7 .pushed 0 1 7) := by decide

/-- Two states the host cannot tell apart, and a host word without RESET and TICK. -/
theorem witness_TheHostReadsTheRegistersThemselves :
    (State.reset.pushConfirmed = (at_ 7 .detecting 5 0 0).pushConfirmed ∧
      State.reset.releaseConfirmed = (at_ 7 .detecting 5 0 0).releaseConfirmed ∧
      State.reset.keyCode = (at_ 7 .detecting 5 0 0).keyCode) ∧
    (fieldRst 0x3FFF = false ∧ fieldTick 0x3FFF = false) := by decide

theorem witness_ThePinsAreTheRegistersThemselves : fieldRst 0x3FFF = false ∧ fieldTick 0x3FFF = false := by decide

/-- Two moves to clear, in either order. -/
theorem test_clear_in_two_words :
    hostWord .aboutToClear .pushFirst State.reset = 0x3E00 ∧ hostNext .aboutToClear .pushFirst State.reset = .owesReleaseClear ∧
      hostWord .owesReleaseClear .pushFirst State.reset = 0x3D00 ∧ hostWord .aboutToClear .releaseFirst State.reset = 0x3D00 ∧
      hostWord .aboutToClear .oneWord State.reset = 0x3F00 := by decide

end Sys2Proof.Tests
end

section
/-! PROOFS. The registers of spec/10_state.md: what RESET leaves in them (R39), the two flags as sticky latches (R26), and what the
host reads (R34, R190). -/

namespace Sys2Proof.Machine

/-! ### RESET -/

/-- After RESET every slot is blank, whichever is read (R39). -/
theorem readSlot_resetRegisters (s : State) (i : Index) : readSlot (resetRegisters s).dispBuf i = 16 := readSlot_blank i

theorem resetRegisters_sameRegisters (s : State) : SameRegisters (resetRegisters s) State.reset :=
  ⟨rfl, rfl, rfl, rfl, rfl, rfl, rfl, rfl, rfl, rfl, rfl, rfl⟩

/-- Settles O11: such a word is RESET alone, and each register is read off what RESET leaves. -/
theorem resetWritesEveryRegister : Obligations.ResetWritesEveryRegister :=
  fun _ s hw => ⟨resetRegisters s, stepWord_reset hw s, exec_reset s, resetRegisters_phase s, resetRegisters_fsm s,
    resetRegisters_detCnt s, resetRegisters_relCnt s, resetRegisters_keyCode s, resetRegisters_pushConfirmed s,
    resetRegisters_releaseConfirmed s, readSlot_resetRegisters s, resetRegisters_rowSel s, resetRegisters_digSel s,
    resetRegisters_seg s, resetRegisters_buzzer s, resetRegisters_sameRegisters s⟩

/-! ### A word is its host strobes, then its TICK -/

/-- What the host's three strobes of a word write: each flag the word clears, and the slot it writes (R106, R191 to R193). -/
def hostStrobed (w : Opw) (s : State) : State :=
  { s with
    pushConfirmed := s.pushConfirmed && !fieldClrPush w
    releaseConfirmed := s.releaseConfirmed && !fieldClrRelease w
    dispBuf := if fieldDispWe w then writeSlot s.dispBuf (fieldDispIdx w) (fieldDispData w) else s.dispBuf }

@[simp] theorem hostStrobed_phase (w : Opw) (s : State) : (hostStrobed w s).phase = s.phase := rfl
@[simp] theorem hostStrobed_fsm (w : Opw) (s : State) : (hostStrobed w s).fsm = s.fsm := rfl
@[simp] theorem hostStrobed_detCnt (w : Opw) (s : State) : (hostStrobed w s).detCnt = s.detCnt := rfl
@[simp] theorem hostStrobed_relCnt (w : Opw) (s : State) : (hostStrobed w s).relCnt = s.relCnt := rfl
@[simp] theorem hostStrobed_keyCode (w : Opw) (s : State) : (hostStrobed w s).keyCode = s.keyCode := rfl
@[simp] theorem hostStrobed_pushConfirmed (w : Opw) (s : State) :
    (hostStrobed w s).pushConfirmed = (s.pushConfirmed && !fieldClrPush w) := rfl
@[simp] theorem hostStrobed_releaseConfirmed (w : Opw) (s : State) :
    (hostStrobed w s).releaseConfirmed = (s.releaseConfirmed && !fieldClrRelease w) := rfl
@[simp] theorem hostStrobed_dispBuf (w : Opw) (s : State) :
    (hostStrobed w s).dispBuf = if fieldDispWe w then writeSlot s.dispBuf (fieldDispIdx w) (fieldDispData w) else s.dispBuf := rfl
@[simp] theorem hostStrobed_rowSel (w : Opw) (s : State) : (hostStrobed w s).rowSel = s.rowSel := rfl
@[simp] theorem hostStrobed_digSel (w : Opw) (s : State) : (hostStrobed w s).digSel = s.digSel := rfl
@[simp] theorem hostStrobed_seg (w : Opw) (s : State) : (hostStrobed w s).seg = s.seg := rfl
@[simp] theorem hostStrobed_buzzer (w : Opw) (s : State) : (hostStrobed w s).buzzer = s.buzzer := rfl
@[simp] theorem hostStrobed_inputs (w : Opw) (s : State) : (hostStrobed w s).inputs = s.inputs := rfl
@[simp] theorem hostStrobed_draws (w : Opw) (s : State) : (hostStrobed w s).draws = s.draws := rfl

/-- The events read no register that a host strobe writes (R162). -/
theorem pushEvent_hostStrobed (c : Lines) (w : Opw) (s : State) :
    PushEvent c (hostStrobed w s) ↔ PushEvent c s := Iff.rfl

theorem releaseEvent_hostStrobed (c : Lines) (w : Opw) (s : State) :
    ReleaseEvent c (hostStrobed w s) ↔ ReleaseEvent c s := Iff.rfl

/-- The TICK of a word comes after its host strobes (R106). -/
theorem strobed_eq (w : Opw) (s : State) :
    strobed w s = if fieldTick w then tick (fieldColN w) (hostStrobed w s) else hostStrobed w s := by
  unfold strobed hostStrobed
  cases fieldClrPush w <;> cases fieldClrRelease w <;> cases fieldDispWe w <;>
    simp [clearPush, clearRelease, storeSlot]

/-- A word with neither RESET nor TICK performs its host strobes alone. -/
theorem stepWord_hostStrobed {w : Opw} (hr : fieldRst w = false) (ht : fieldTick w = false) (s : State) :
    stepWord w s = .next (hostStrobed w s) := by
  simp [stepWord_strobed hr, strobed_eq, ht]

/-! ### Nothing but the flags depends on the flags -/

/-- The states differ in the two flags at most. -/
def SameButFlags (s u : State) : Prop :=
  u = { s with pushConfirmed := u.pushConfirmed, releaseConfirmed := u.releaseConfirmed }

theorem sameButFlags_iff (s u : State) :
    SameButFlags s u ↔ u.phase = s.phase ∧ u.fsm = s.fsm ∧ u.detCnt = s.detCnt ∧ u.relCnt = s.relCnt ∧
      u.keyCode = s.keyCode ∧ u.dispBuf = s.dispBuf ∧ u.rowSel = s.rowSel ∧ u.digSel = s.digSel ∧ u.seg = s.seg ∧
      u.buzzer = s.buzzer ∧ u.inputs = s.inputs ∧ u.draws = s.draws := by
  cases u
  simp [SameButFlags]

theorem SameButFlags.resetRegisters {s u : State} (h : SameButFlags s u) :
    SameButFlags (resetRegisters s) (resetRegisters u) := by
  rw [sameButFlags_iff] at h ⊢
  simp [h]

theorem SameButFlags.hostStrobed {s u : State} (h : SameButFlags s u) (w : Opw) :
    SameButFlags (hostStrobed w s) (hostStrobed w u) := by
  rw [sameButFlags_iff] at h ⊢
  simp [h]

/-- A TICK reads no flag: RENDER and ADVANCE read `phase` and the slots, SCAN the scanner's registers, BUZZ what SCAN left. -/
theorem SameButFlags.tick {s u : State} (h : SameButFlags s u) (c : Lines) : SameButFlags (tick c s) (tick c u) := by
  rw [sameButFlags_iff] at h ⊢
  obtain ⟨hphase, hfsm, hdet, hrel, hkey, hrest⟩ := h
  have hscan := scan_congr (c := c) hphase hfsm hdet hrel hkey (by rw [hphase])
  simp [hphase, hscan, hrest]

theorem SameButFlags.strobed {s u : State} (h : SameButFlags s u) (w : Opw) :
    SameButFlags (strobed w s) (strobed w u) := by
  rw [strobed_eq, strobed_eq]
  split
  · exact (h.hostStrobed w).tick _
  · exact h.hostStrobed w

theorem SameButFlags.stepWord {s u : State} (h : SameButFlags s u) (w : Opw) :
    ∃ t v, stepWord w s = .next t ∧ stepWord w u = .next v ∧ SameButFlags t v := by
  cases hw : fieldRst w with
  | true => exact ⟨_, _, stepWord_reset hw s, stepWord_reset hw u, h.resetRegisters⟩
  | false => exact ⟨_, _, stepWord_strobed hw s, stepWord_strobed hw u, h.strobed w⟩

/-! ### The latches -/

/-- Each flag after a word without RESET: its event, or a 1 the word does not clear (R26). An event of the word comes after its
clear, so the clear does not lose it. -/
theorem strobed_flags (w : Opw) (s : State) :
    ((strobed w s).pushConfirmed = true ↔
      (fieldTick w = true ∧ PushEvent (fieldColN w) s) ∨ (s.pushConfirmed = true ∧ fieldClrPush w = false)) ∧
    ((strobed w s).releaseConfirmed = true ↔
      (fieldTick w = true ∧ ReleaseEvent (fieldColN w) s) ∨ (s.releaseConfirmed = true ∧ fieldClrRelease w = false)) := by
  rw [strobed_eq]
  cases fieldTick w with
  | false => simp
  | true =>
    obtain ⟨hpush, hrelease⟩ := scan_flags (fieldColN w) (hostStrobed w s)
    rw [pushEvent_hostStrobed] at hpush
    rw [releaseEvent_hostStrobed] at hrelease
    exact ⟨by simpa using hpush, by simpa using hrelease⟩

/-- Settles O33: two runs of one word that differ in the flags keep apart in the flags alone; a RESET leaves both flags 0, and any
other word is `strobed_flags`. -/
theorem flagsAreStickyLatches : Obligations.FlagsAreStickyLatches := by
  refine ⟨fun w s p r => ?_, fun w s => ?_⟩
  · have h : SameButFlags s { s with pushConfirmed := p, releaseConfirmed := r } := rfl
    exact h.stepWord w
  · cases hw : fieldRst w with
    | true => exact ⟨_, stepWord_reset hw s, by simp, by simp⟩
    | false =>
      obtain ⟨hpush, hrelease⟩ := strobed_flags w s
      exact ⟨_, stepWord_strobed hw s, hpush.trans (by simp), hrelease.trans (by simp)⟩

/-! ### What the host reads -/

/-- STATUS bit 0 (R34). -/
theorem statusRegister_getLsbD_zero (s : State) : (statusRegister s).getLsbD 0 = s.pushConfirmed := by
  simp only [statusRegister, BitVec.getLsbD_append]
  simp

/-- STATUS bit 1 (R34). -/
theorem statusRegister_getLsbD_one (s : State) : (statusRegister s).getLsbD 1 = s.releaseConfirmed := by
  simp only [statusRegister, BitVec.getLsbD_append]
  simp

theorem hostRead_congr {s u : State} (hp : s.pushConfirmed = u.pushConfirmed)
    (hr : s.releaseConfirmed = u.releaseConfirmed) (hk : s.keyCode = u.keyCode) : hostRead s = hostRead u := by
  simp [hostRead, statusRegister, keycodeRegister, hp, hr, hk]

/-- After RESET the host reads 0 in both registers (R39). -/
theorem hostRead_resetRegisters (s : State) : hostRead (resetRegisters s) = (0b00, 0) := by
  simp only [hostRead, statusRegister, keycodeRegister, resetRegisters_pushConfirmed, resetRegisters_releaseConfirmed,
    resetRegisters_keyCode]
  rfl

theorem statusRegister_clearPush (s : State) : statusRegister (clearPush s) = statusRegister s &&& 0b10 := by
  simp only [statusRegister, clearPush_pushConfirmed, clearPush_releaseConfirmed]
  cases s.pushConfirmed <;> cases s.releaseConfirmed <;> rfl

theorem statusRegister_clearRelease (s : State) : statusRegister (clearRelease s) = statusRegister s &&& 0b01 := by
  simp only [statusRegister, clearRelease_pushConfirmed, clearRelease_releaseConfirmed]
  cases s.pushConfirmed <;> cases s.releaseConfirmed <;> rfl

/-- The bits of one STATUS stand in another: each flag of the one is a flag of the other. -/
theorem statusRegister_subset {s t : State} (hp : s.pushConfirmed = true → t.pushConfirmed = true)
    (hr : s.releaseConfirmed = true → t.releaseConfirmed = true) : statusRegister s &&& ~~~ statusRegister t = 0 := by
  unfold statusRegister
  revert hp hr
  generalize s.pushConfirmed = a, s.releaseConfirmed = b, t.pushConfirmed = c, t.releaseConfirmed = d
  revert a b c d
  decide

/-- A host word sets no bit of STATUS (R190). -/
theorem statusRegister_hostStrobed_subset (w : Opw) (s : State) :
    statusRegister (hostStrobed w s) &&& ~~~ statusRegister s = 0 :=
  statusRegister_subset (fun h => (Bool.and_eq_true_iff.mp h).1) (fun h => (Bool.and_eq_true_iff.mp h).1)

/-- A TICK clears no bit of STATUS. -/
theorem statusRegister_subset_tick (c : Lines) (s : State) : statusRegister s &&& ~~~ statusRegister (tick c s) = 0 := by
  obtain ⟨hpush, hrelease⟩ := scan_flags c s
  apply statusRegister_subset
  · rw [tick_pushConfirmed, hpush]
    exact Or.inr
  · rw [tick_releaseConfirmed, hrelease]
    exact Or.inr

/-- Settles O56, clause by clause: the bits, what the reading depends on, then each operation. -/
theorem theHostReadsTheRegistersThemselves : Obligations.TheHostReadsTheRegistersThemselves := by
  refine ⟨fun s => ⟨statusRegister_getLsbD_zero s, statusRegister_getLsbD_one s, rfl, rfl⟩,
    fun _ _ => hostRead_congr, fun s => ⟨_, exec_clrp s, ?_⟩, fun s => ⟨_, exec_clrr s, ?_⟩,
    fun w s hr ht => ⟨_, stepWord_hostStrobed hr ht s, statusRegister_hostStrobed_subset w s, hostStrobed_keyCode w s⟩,
    fun c s => ⟨_, exec_tick c s, statusRegister_subset_tick c s, tick_dispBuf c s⟩,
    fun i g s => ⟨_, exec_wrd i g s, readSlot_writeSlot_same _ i g, hostRead_congr rfl rfl rfl⟩,
    fun s => ⟨_, exec_reset s, hostRead_resetRegisters s, readSlot_resetRegisters s⟩⟩
  · rw [hostRead, statusRegister_clearPush, keycodeRegister, clearPush_keyCode]
  · rw [hostRead, statusRegister_clearRelease, keycodeRegister, clearRelease_keyCode]

end Sys2Proof.Machine
end

section
/-! PROOFS. The encoding of spec/30_encoding.md: the rows of the operations as mask and match (R72 to R77), the bits that are not
read (R84), and the word without a strobe (R77). -/

namespace Sys2Proof

/-! ### The rows as conditions on the strobes -/

theorem mask_iff (w m v : Opw) : w &&& m = v ↔ ∀ k : Fin 16, (w.getLsbD k && m.getLsbD k) = v.getLsbD k :=
  ⟨fun h k => by rw [← h, BitVec.getLsbD_and], fun h => mask_of_getLsbD fun k hk => h ⟨k, hk⟩⟩

theorem resetRow_iff (w : Opw) : w &&& 0x8000 = 0x8000 ↔ fieldRst w = true := by
  rw [mask_iff]
  simp [Fin.forall_fin_succ, fieldRst]

/-- The bits of the mask of a strobe's row: `rst` and the strobe. -/
theorem getLsbD_strobeMask : ∀ (j : Fin 15) (k : Fin 16),
    (0x8000 ||| 1 <<< j.val : Opw).getLsbD k = decide (k = 15 ∨ k = j.castSucc) := by decide

/-- The one bit of the match of a strobe's row. -/
theorem getLsbD_strobeMatch : ∀ (j : Fin 15) (k : Fin 16),
    (1 <<< j.val : Opw).getLsbD k = decide (k = j.castSucc) := by decide

/-- The row of the strobe at bit `j` asks for that bit and for `rst` clear, and for no other (R73 to R76). -/
theorem strobeRow_iff (w : Opw) (j : Fin 15) :
    w &&& (0x8000 ||| 1 <<< j.val) = 1 <<< j.val ↔ fieldRst w = false ∧ w.getLsbD j = true := by
  have hj : (15 : Fin 16) ≠ j.castSucc := (Fin.castSucc_lt_last j).ne'
  simp only [mask_iff, getLsbD_strobeMask, getLsbD_strobeMatch]
  constructor
  · intro h
    exact ⟨by simpa [hj, fieldRst] using h 15, by simpa using h j.castSucc⟩
  · rintro ⟨hrst, hstrobe⟩ k
    by_cases hk : k = 15 ∨ k = j.castSucc
    · obtain rfl | rfl := hk
      · simpa [hj, fieldRst] using hrst
      · simpa using hstrobe
    · simp [not_or.mp hk]

theorem tickRow_iff (w : Opw) : w &&& 0xC000 = 0x4000 ↔ fieldRst w = false ∧ fieldTick w = true := strobeRow_iff w 14
theorem clrpRow_iff (w : Opw) : w &&& 0x8200 = 0x0200 ↔ fieldRst w = false ∧ fieldClrPush w = true := strobeRow_iff w 9
theorem clrrRow_iff (w : Opw) : w &&& 0x8100 = 0x0100 ↔ fieldRst w = false ∧ fieldClrRelease w = true := strobeRow_iff w 8
theorem wrdRow_iff (w : Opw) : w &&& 0x8080 = 0x0080 ↔ fieldRst w = false ∧ fieldDispWe w = true := strobeRow_iff w 7

/-! ### Which operations are in a word -/

theorem mem_strobedOps_iff (w : Opw) (i : Instr) :
    i ∈ strobedOps w ↔ (fieldClrPush w = true ∧ i = .clrp) ∨ (fieldClrRelease w = true ∧ i = .clrr) ∨
      (fieldDispWe w = true ∧ i = .wrd (fieldDispIdx w) (fieldDispData w)) ∨
      (fieldTick w = true ∧ i = .tick (fieldColN w)) := by
  simp [strobedOps]

theorem strobedOps_eq_nil_iff (w : Opw) :
    strobedOps w = [] ↔
      fieldDispWe w = false ∧ fieldClrRelease w = false ∧ fieldClrPush w = false ∧ fieldTick w = false := by
  simp [strobedOps, and_left_comm]

/-- The row of NOP asks for every strobe clear, `rst` among them (R77). -/
theorem nopRow_iff (w : Opw) : w &&& 0xC380 = 0x0000 ↔ strobedOps w = [] ∧ fieldRst w = false := by
  rw [mask_iff, strobedOps_eq_nil_iff]
  simp [Fin.forall_fin_succ, fieldRst, fieldTick, fieldClrPush, fieldClrRelease, fieldDispWe, and_assoc]

/-- RESET is alone in its word; NOP is there when nothing else is; any other operation is there by its strobe (R71). -/
theorem mem_decodeWord_iff (w : Opw) (i : Instr) :
    i ∈ decodeWord w ↔ (fieldRst w = true ∧ i = .reset) ∨ (strobedOps w = [] ∧ fieldRst w = false ∧ i = .nop) ∨
      (fieldRst w = false ∧ i ∈ strobedOps w) := by
  unfold decodeWord
  cases fieldRst w with
  | true => simp
  | false => cases h : strobedOps w <;> simp

/-- Settles O2: each row's mask and match say that the strobes are as `mem_decodeWord_iff` asks for the row's operation. -/
theorem maskAndMatchSelectTheOperation : Obligations.MaskAndMatchSelectTheOperation := by
  intro w
  rw [resetRow_iff, tickRow_iff, clrpRow_iff, clrrRow_iff, wrdRow_iff, nopRow_iff]
  simp only [mem_decodeWord_iff, mem_strobedOps_iff]
  refine ⟨?_, fun c => ?_, ?_, ?_, fun i g => ?_, ?_⟩ <;> simp [and_assoc, fieldColN, fieldDispIdx, fieldDispData]

/-! ### Bits that no operation reads -/

/-- What a word decodes to is decided by `rst`, and without `rst` by the strobes and the operands of those that are set (R84). -/
theorem decodeWord_congr {w v : Opw} (hrst : fieldRst w = fieldRst v)
    (hread : fieldRst w = false →
      fieldTick w = fieldTick v ∧ fieldClrPush w = fieldClrPush v ∧ fieldClrRelease w = fieldClrRelease v ∧
        fieldDispWe w = fieldDispWe v ∧ (fieldTick w = true → fieldColN w = fieldColN v) ∧
        (fieldDispWe w = true → fieldDispIdx w = fieldDispIdx v ∧ fieldDispData w = fieldDispData v)) :
    decodeWord w = decodeWord v := by
  cases hw : fieldRst w with
  | true => rw [decodeWord_reset hw, decodeWord_reset (hrst ▸ hw)]
  | false =>
    obtain ⟨ht, ha, hb, hd, hcols, hslot⟩ := hread hw
    have hstrobed : strobedOps w = strobedOps v := by
      unfold strobedOps
      rw [← ht, ← ha, ← hb, ← hd]
      congr 1
      · congr 1
        split
        case isTrue h => rw [(hslot h).1, (hslot h).2]
        case isFalse => rfl
      · split
        case isTrue h => rw [hcols h]
        case isFalse => rfl
    simp only [decodeWord, ← hrst, hstrobed]

end Sys2Proof

namespace Sys2Proof.Machine

/-- Every word is legal in every state (R84, R210). -/
theorem stepWord_total (w : Opw) (s : State) : ∃ t, stepWord w s = .next t := by
  cases h : fieldRst w with
  | true => exact ⟨_, stepWord_reset h s⟩
  | false => exact ⟨_, stepWord_strobed h s⟩

/-- A word with TICK and WRD writes its slot before it renders (R106, R193). -/
theorem strobed_tick_wrd {w : Opw} (ht : fieldTick w = true) (hd : fieldDispWe w = true) (s : State) :
    (strobed w s).dispBuf = writeSlot s.dispBuf (fieldDispIdx w) (fieldDispData w) ∧
      (strobed w s).seg =
        segPattern (readSlot (writeSlot s.dispBuf (fieldDispIdx w) (fieldDispData w)) (rowOf s.phase)) := by
  simp [strobed_eq, ht, hd]

/-- Settles O5: the glyph written is the one rendered, and its pattern is the blank; words alike in what is read decode alike. -/
theorem unreadBitsAreDontCare : Obligations.UnreadBitsAreDontCare := by
  refine ⟨fun w s hTick hd hrow hg => ?_, fun w v s hrst hread => ?_⟩
  · obtain ⟨hr, ht⟩ := hTick
    obtain ⟨hslots, hseg⟩ := strobed_tick_wrd ht hd s
    refine ⟨strobed w s, stepWord_strobed hr s, ?_, ?_⟩
    · rw [hslots, readSlot_writeSlot_same]
    · rw [hseg, ← hrow, readSlot_writeSlot_same, segPattern_blank (by omega)]
  · obtain ⟨t, h⟩ := stepWord_total w s
    exact ⟨t, h, by rw [stepWord, ← decodeWord_congr hrst hread, ← stepWord, h]⟩

/-! ### The word without a strobe -/

/-- A word with no strobe decodes to NOP alone, and NOP leaves the state (R77, R104). -/
theorem stepWord_nopRow {w : Opw} (h : w &&& 0xC380 = 0x0000) (s : State) : stepWord w s = .next s := by
  obtain ⟨hnone, hr⟩ := (nopRow_iff w).mp h
  obtain ⟨hd, hb, ha, ht⟩ := (strobedOps_eq_nil_iff w).mp hnone
  rw [stepWord, decodeWord_nop hr ht ha hb hd, execAll_cons, exec_nop, andThen_next, execAll_nil]

/-- Settles O12: 0x3C00 and 0x0000 are 0 under the mask like any word without a strobe. -/
theorem nopChangesNothing : Obligations.NopChangesNothing :=
  ⟨fun _ s h => stepWord_nopRow h s,
    fun s => ⟨exec_nop s, stepWord_nopRow (by decide) s, stepWord_nopRow (by decide) s⟩⟩

end Sys2Proof.Machine
end

section
/-! PROOFS. The tick scheduler of spec/40_tick_scheduler.md: the step function of R106 and its runs, what changes `phase` (R107), and
the order of the micro-operations (R101). -/

namespace Sys2Proof.Machine

/-! ### Runs and the step function -/

/-- A run over two sequences of words is the run over the second from where the first ends (R106). -/
theorem runWords_append (ws vs : List Opw) (s : State) :
    runWords (ws ++ vs) s = andThen (runWords ws s) (runWords vs) := by
  induction ws generalizing s with
  | nil => rfl
  | cons w ws ih =>
    obtain ⟨t, ht⟩ := stepWord_total w s
    simp only [List.cons_append, runWords_cons, ht, andThen_next, ih]

theorem runWords_singleton (w : Opw) (s : State) : runWords [w] s = stepWord w s := by
  obtain ⟨t, ht⟩ := stepWord_total w s
  rw [runWords_cons, ht, andThen_next, runWords_nil]

/-- Settles O7: a word with `rst` resets, any other performs its strobes as `strobed` has them, and a run grows by one word. -/
theorem stepIsTheSpecsStepFunction : Obligations.StepIsTheSpecsStepFunction := by
  refine ⟨fun w s hw => ⟨_, stepWord_reset hw s, resetRegisters_sameRegisters s⟩,
    fun w s hw => ⟨strobed w s, stepWord_strobed hw s, ?_⟩, fun ws w s t h => ?_⟩
  · simp only [exec_tick, ← apply_ite Host.Outcome.next]
    rfl
  · rw [runWords_append, h, andThen_next, runWords_singleton]

/-! ### The phase -/

/-- The phase after a TICK, as a number: 15 goes to 0 (R107). -/
theorem tick_phase_toNat (c : Lines) (s : State) : (tick c s).phase.toNat = (s.phase.toNat + 1) % 16 := by
  rw [tick_phase, BitVec.toNat_add]
  rfl

/-- The micro-operations before ADVANCE leave the phase (R107). -/
theorem buzz_scan_render_phase (c : Lines) (s : State) : (buzz (scan c (render s))).phase = s.phase := by
  simp [buzz_eq]

/-- ADVANCE, with the wrapping sum for `nextPhase` (R107). -/
theorem advance_eq (s : State) : advance s = { s with phase := s.phase + 1 } := by
  rw [advance, nextPhase_eq]

/-- Without RESET a word changes the phase by its TICK alone (R107). -/
theorem strobed_phase_toNat (w : Opw) (s : State) :
    (strobed w s).phase.toNat = if fieldTick w = true then (s.phase.toNat + 1) % 16 else s.phase.toNat := by
  rw [strobed_eq]
  cases fieldTick w with
  | true => exact tick_phase_toNat (fieldColN w) (hostStrobed w s)
  | false => rfl

/-- Settles O19: TICK ends in ADVANCE; then words, with RESET and without; then each operation. -/
theorem phaseAdvancesOnTicksOnly : Obligations.PhaseAdvancesOnTicksOnly := by
  refine ⟨fun c s => ⟨?_, buzz_scan_render_phase c s⟩, fun w s => ?_, fun i s => ?_⟩
  · rw [exec_tick, tick, advance_eq]
  · cases hw : fieldRst w with
    | true => exact ⟨_, stepWord_reset hw s, rfl⟩
    | false => exact ⟨_, stepWord_strobed hw s, strobed_phase_toNat w s⟩
  · cases i with
    | reset => exact ⟨_, exec_reset s, resetRegisters_phase s⟩
    | tick c => exact ⟨_, exec_tick c s, tick_phase_toNat c s⟩
    | clrp => exact ⟨_, exec_clrp s, clearPush_phase s⟩
    | clrr => exact ⟨_, exec_clrr s, clearRelease_phase s⟩
    | wrd j g => exact ⟨_, exec_wrd j g s, storeSlot_phase s j g⟩
    | nop => exact ⟨_, exec_nop s, rfl⟩

/-! ### The order of the micro-operations -/

/-- On a push event SCAN takes the arm of R156. -/
theorem scan_of_pushEvent {c : Lines} {s : State} (h : PushEvent c s) : scan c s = pushEvent s := by
  obtain ⟨hfsm, hkey, hlow, hcnt⟩ := h
  rw [scan_detecting hfsm hkey, (lowSample_iff c s).mp hlow, resampleDetecting, if_neg (by decide),
    if_pos ((toNat_le_one_iff _).mp hcnt)]

/-- On a release event SCAN takes the arm of R160. -/
theorem scan_of_releaseEvent {c : Lines} {s : State} (h : ReleaseEvent c s) : scan c s = releaseEvent s := by
  obtain ⟨hfsm, hkey, hhigh, hcnt⟩ := h
  rw [lowSample_iff, Bool.not_eq_true] at hhigh
  rw [scan_pushed hfsm hkey, hhigh, resamplePushed, if_neg (by decide), if_pos ((toNat_le_one_iff _).mp hcnt)]

/-- Settles O22: RENDER and SCAN commute, and BUZZ reads the `fsm` that SCAN's event arm leaves. -/
theorem microOperationsRunInOrder : Obligations.MicroOperationsRunInOrder := by
  refine fun c s => ⟨rfl, ?_, fun h => ⟨_, exec_tick c s, ?_⟩, fun h => ⟨_, exec_tick c s, ?_⟩⟩
  · rw [exec_tick, tick, scan_render]
  · rw [tick_buzzer, scan_of_pushEvent h, pushEvent_fsm, if_pos rfl]
  · rw [tick_buzzer, scan_of_releaseEvent h, releaseEvent_fsm, if_neg (by decide)]

end Sys2Proof.Machine
end

section
/-! PROOFS. The display multiplexer of spec/41_display_multiplexer.md: what a TICK selects and shows (R121, R122), and what the
reference host of spec/45_host_operations.md lets it show (R197). -/

namespace Sys2Proof.Machine

/-! ### RENDER -/

/-- The one line of the select that is 1 is `phase div 4` (R81, R121). -/
theorem onehot4_rowOf_getLsbD_iff (p : Position) {j : Nat} (hj : j < 4) :
    (onehot4 (rowOf p)).getLsbD j = true ↔ j = p.toNat / 4 := by
  have hline := onehot4_getLsbD (rowOf p) (BitVec.ofNatLT j hj)
  rw [BitVec.toNat_ofNatLT] at hline
  rw [hline, decide_eq_true_iff, ← BitVec.toNat_inj, BitVec.toNat_ofNatLT, rowOf_toNat, eq_comm]

/-- Settles O20: both selects are the one-hot of the row, and `seg` the pattern of the row's slot. -/
theorem renderSelectsOneDigitAndShowsItsSlot : Obligations.RenderSelectsOneDigitAndShowsItsSlot := by
  refine fun c s => ⟨_, exec_tick c s, tick_dispBuf c s, ?_, fun j hj => ?_, fun g hg => ?_⟩
  · rw [tick_rowSel, tick_digSel]
  · rw [tick_rowSel]
    exact onehot4_rowOf_getLsbD_iff s.phase hj
  · have hseg : (tick c s).seg = segPattern g := by
      rw [hg]
      exact tick_seg c s
    refine ⟨fun hdigit => ?_, fun hblank => ?_⟩
    · rw [hseg, segPattern_digit hdigit, BitVec.ofNat_toNat]
    · rw [hseg, segPattern_blank (by omega)]

/-! ### Beside the reference host -/

/-- A key code and its glyph are the same number (R195). -/
theorem keyChar_toNat (k : Position) : (keyChar k).toNat = k.toNat :=
  BitVec.toNat_setWidth_of_le (by decide)

/-- The host changes the slots only where it writes, and there slot 0 alone (R197). -/
theorem hostEffect_dispBuf (h : HostPc) (way : ClearWay) (s : State) :
    (hostEffect h way s).dispBuf =
      if h = .aboutToWrite then writeSlot s.dispBuf 0 (keyChar s.keyCode) else s.dispBuf := by
  cases h with
  | aboutToClear => cases way <;> rfl
  | _ => rfl

/-- The invariant bears any digit or the blank in slot 0. -/
theorem oneDigitInv_writeSlot {d : DispBuf} (hd : OneDigitInv d) {g : Glyph} (hg : g.toNat ≤ 16) :
    OneDigitInv (writeSlot d 0 g) := by
  obtain ⟨h1, h2, h3, -⟩ := hd
  rw [OneDigitInv, readSlot_writeSlot_same, readSlot_writeSlot_other d g (by decide),
    readSlot_writeSlot_other d g (by decide), readSlot_writeSlot_other d g (by decide)]
  exact ⟨h1, h2, h3, hg⟩

/-- A key code is at most 15, so what the host writes is a digit. -/
theorem oneDigitInv_hostEffect (h : HostPc) (way : ClearWay) {s : State} (hs : OneDigitInv s.dispBuf) :
    OneDigitInv (hostEffect h way s).dispBuf := by
  rw [hostEffect_dispBuf]
  split
  · refine oneDigitInv_writeSlot hs ?_
    rw [keyChar_toNat]
    omega
  · exact hs

/-- The step lemma: a TICK writes no slot, and the host's move keeps the invariant. -/
theorem moveClosed_oneDigitInv (m : Move) (y : Closed) (hy : OneDigitInv y.block.dispBuf) :
    ∃ z, moveClosed m y = .next z ∧ OneDigitInv z.block.dispBuf := by
  cases m with
  | tick c => exact ⟨_, moveClosed_tick c y, by rwa [tick_dispBuf]⟩
  | host way => exact ⟨_, moveClosed_host way y, oneDigitInv_hostEffect y.host way hy⟩

/-- A run over moves from a place with `P` ends in one, if every move answers a place and keeps `P`. -/
theorem runClosed_keeps (P : Closed → Prop) (hMove : ∀ m y, P y → ∃ z, moveClosed m y = .next z ∧ P z)
    (ms : List Move) (y : Closed) (hy : P y) : ∃ z, runClosed ms y = .next z ∧ P z := by
  induction ms generalizing y with
  | nil => exact ⟨y, rfl, hy⟩
  | cons m ms ih =>
    obtain ⟨z, hz, hPz⟩ := hMove m y hy
    rw [runClosed_cons_of_next hz]
    exact ih z hPz

theorem oneDigitInv_reset : OneDigitInv State.reset.dispBuf := by decide

/-- Any slot but slot 0 is blank. -/
theorem readSlot_of_oneDigitInv {d : DispBuf} (hd : OneDigitInv d) {i : Index} (hi : i ≠ 0) : readSlot d i = 16 := by
  obtain ⟨h1, h2, h3, -⟩ := hd
  have hcases : ∀ k : Index, k ≠ 0 → k = 1 ∨ k = 2 ∨ k = 3 := by decide
  obtain rfl | rfl | rfl := hcases i hi
  · exact h1
  · exact h2
  · exact h3

/-- Digit 0 is selected in phases 0 to 3 (R78). -/
theorem rowOf_eq_zero_iff (p : Position) : rowOf p = 0 ↔ p.toNat < 4 := by
  rw [← BitVec.toNat_inj, rowOf_toNat]
  exact Nat.div_eq_zero_iff_lt (by decide)

/-- In phases 4 to 15 the row's slot is one of those the host leaves blank (R122, R131). -/
theorem tick_seg_blank (c : Lines) {s : State} (hs : OneDigitInv s.dispBuf) (hp : 4 ≤ s.phase.toNat) :
    (tick c s).seg = 0x00 := by
  have hrow : rowOf s.phase ≠ 0 := mt (rowOf_eq_zero_iff _).mp (by omega)
  rw [tick_seg, readSlot_of_oneDigitInv hs hrow, segPattern_blank (by decide)]

/-- In phases 0 to 3 the row's slot is slot 0 (R122). -/
theorem tick_seg_slotZero (c : Lines) {s : State} (hp : s.phase.toNat < 4) :
    (tick c s).seg = segPattern (readSlot s.dispBuf 0) := by
  rw [tick_seg, (rowOf_eq_zero_iff _).mpr hp]

/-- Settles O54: the invariant by its step lemma and along runs, what a TICK shows under it, and the host's write. -/
theorem theReferenceHostShowsOneDigit : Obligations.TheReferenceHostShowsOneDigit := by
  refine ⟨fun y m hy => moveClosed_oneDigitInv m y hy,
    fun y c hy => ⟨_, moveClosed_tick c y, tick_seg_blank c hy, tick_seg_slotZero c⟩,
    fun ms => runClosed_keeps (fun y => OneDigitInv y.block.dispBuf) moveClosed_oneDigitInv ms _ oneDigitInv_reset,
    fun s way => ⟨_, moveClosed_host way _, rfl, ?_⟩⟩
  rw [hostEffect_dispBuf, if_pos rfl, readSlot_writeSlot_same, keyChar_toNat]

end Sys2Proof.Machine
end

section
/-! PROOFS. The segment encoder of spec/42_segment_encoder.md: the look-up of R130 over any table, of which `segPattern_digit` and
`segPattern_blank` speak for the block's own. -/

namespace Sys2Proof.Machine

/-- A code of a digit is the index into the table, its top bit being 0 (R130). -/
theorem segLookup_digit (table : BitVec 4 → Pattern) {g : Glyph} (h : g.toNat ≤ 15) :
    segLookup table g = table (BitVec.ofNat 4 g.toNat) := by
  rw [segLookup, if_pos h, BitVec.ofNat_toNat]

/-- No table shows a code above 15: the top bit selects the blank (R131, R133). -/
theorem segLookup_blank (table : BitVec 4 → Pattern) {g : Glyph} (h : 16 ≤ g.toNat) :
    segLookup table g = 0x00 := by
  rw [segLookup, if_neg (by omega), Config.segBlank]

/-- Settles O21: a code is a digit or above 15, and the block's SEG is the look-up in its own table by definition. -/
theorem segLooksUpOrBlanks : Obligations.SegLooksUpOrBlanks :=
  fun table _ => ⟨segLookup_digit table, segLookup_blank table, rfl⟩

end Sys2Proof.Machine
end

section
/-! PROOFS. The keypad scanner and the debounce machine of spec/43_keypad_scanner_debounce.md: one equation per arm of SCAN in the terms
of the claims (R152 to R161), what a TICK in that arm leaves, and the one column bit that SCAN reads (R150). -/

namespace Sys2Proof.Machine

/-! ### The arms of SCAN. Those of the two events are `scan_of_pushEvent` and `scan_of_releaseEvent`. -/

theorem not_lowSample_iff (c : Lines) (s : State) : ¬ LowSample c s ↔ sampleLow s.phase c = false := by
  rw [lowSample_iff, Bool.not_eq_true]

/-- A count of 2 or more is not one that a re-sample takes to 0. -/
theorem not_le_one_of_two_le {x : Count} (h : 2 ≤ x.toNat) : ¬ x ≤ 1 := by
  rw [← toNat_le_one_iff]
  omega

/-- A count that is not 0 goes down by 1 without wrapping. -/
theorem count_sub_one_toNat {x : Count} (h : 1 ≤ x.toNat) : (x - 1).toNat = x.toNat - 1 :=
  BitVec.toNat_sub_of_le (BitVec.le_def.mpr h)

/-- The arms that write nothing (R152, R154, R158). -/
theorem scan_of_uncounted {c : Lines} {s : State}
    (h : (s.fsm = .idle ∧ ¬ LowSample c s) ∨ (s.fsm = .detecting ∧ ¬ AtKey s) ∨ (s.fsm = .pushed ∧ ¬ AtKey s)) :
    scan c s = s := by
  obtain ⟨hfsm, hhigh⟩ | ⟨hfsm, hkey⟩ | ⟨hfsm, hkey⟩ := h
  · exact scan_idle_high hfsm ((not_lowSample_iff c s).mp hhigh)
  · exact scan_other (by simp [hfsm]) hkey
  · exact scan_other (by simp [hfsm]) hkey

/-- R153. -/
theorem scan_of_firstObservation {c : Lines} {s : State} (hfsm : s.fsm = .idle) (hlow : LowSample c s) :
    scan c s = firstObservation s :=
  scan_idle_low hfsm ((lowSample_iff c s).mp hlow)

/-- R155. -/
theorem scan_of_abandon {c : Lines} {s : State} (hfsm : s.fsm = .detecting) (hkey : AtKey s) (hhigh : ¬ LowSample c s) :
    scan c s = abandon s := by
  rw [scan_detecting hfsm hkey, (not_lowSample_iff c s).mp hhigh]
  rfl

/-- R157. -/
theorem scan_of_countDetect {c : Lines} {s : State} (hfsm : s.fsm = .detecting) (hkey : AtKey s) (hlow : LowSample c s)
    (hcnt : 2 ≤ s.detCnt.toNat) : scan c s = countDetect s := by
  rw [scan_detecting hfsm hkey, (lowSample_iff c s).mp hlow]
  exact if_neg (not_le_one_of_two_le hcnt)

/-- R159. -/
theorem scan_of_reloadRelease {c : Lines} {s : State} (hfsm : s.fsm = .pushed) (hkey : AtKey s) (hlow : LowSample c s) :
    scan c s = reloadRelease s := by
  rw [scan_pushed hfsm hkey, (lowSample_iff c s).mp hlow]
  rfl

/-- R161. -/
theorem scan_of_countRelease {c : Lines} {s : State} (hfsm : s.fsm = .pushed) (hkey : AtKey s) (hhigh : ¬ LowSample c s)
    (hcnt : 2 ≤ s.relCnt.toNat) : scan c s = countRelease s := by
  rw [scan_pushed hfsm hkey, (not_lowSample_iff c s).mp hhigh]
  exact if_neg (not_le_one_of_two_le hcnt)

/-! ### A TICK, arm by arm -/

/-- R157 on numbers. -/
theorem countDetect_detCnt_toNat {s : State} (hcnt : 2 ≤ s.detCnt.toNat) :
    (countDetect s).detCnt.toNat = s.detCnt.toNat - 1 :=
  count_sub_one_toNat (by omega)

/-- R161 on numbers. -/
theorem countRelease_relCnt_toNat {s : State} (hcnt : 2 ≤ s.relCnt.toNat) :
    (countRelease s).relCnt.toNat = s.relCnt.toNat - 1 :=
  count_sub_one_toNat (by omega)

/-- RENDER and ADVANCE do not wait for SCAN (R100, R107, R120). -/
theorem tickAlways_tick (c : Lines) (s : State) : TickAlways s (tick c s) :=
  ⟨tick_phase c s, tick_rowSel c s, tick_digSel c s, tick_seg c s, tick_dispBuf c s⟩

/-- Settles O24: SCAN leaves the state it finds, so BUZZ sees the `fsm` of before. -/
theorem samplesThatDoNotCountChangeNothing : Obligations.SamplesThatDoNotCountChangeNothing := by
  intro c s h
  refine ⟨tick c s, exec_tick c s, tickAlways_tick c s, ?_⟩
  simp [FlagsKept, scan_of_uncounted h]

/-- Settles O27: SCAN takes the arm of the push event, and BUZZ sees PUSHED. -/
theorem theLastLowResampleConfirmsThePush : Obligations.TheLastLowResampleConfirmsThePush := by
  intro c s h
  refine ⟨tick c s, exec_tick c s, tickAlways_tick c s, ?_⟩
  simp [scan_of_pushEvent h, Config.releaseReload]

/-- Settles O28: at 2 or more SCAN counts down, and 1 below such a count does not wrap. -/
theorem aLowResampleCountsTheDetectionDown : Obligations.ALowResampleCountsTheDetectionDown := by
  intro c s hfsm hkey hlow hcnt
  refine ⟨tick c s, exec_tick c s, tickAlways_tick c s, ?_⟩
  simp [FlagsKept, scan_of_countDetect hfsm hkey hlow hcnt, hfsm, countDetect_detCnt_toNat hcnt, -countDetect_detCnt]

/-- Settles O29: SCAN reloads, and BUZZ sees PUSHED. -/
theorem aHeldKeyReloadsTheReleaseCounter : Obligations.AHeldKeyReloadsTheReleaseCounter := by
  intro c s hfsm hkey hlow
  refine ⟨tick c s, exec_tick c s, tickAlways_tick c s, ?_⟩
  simp [FlagsKept, scan_of_reloadRelease hfsm hkey hlow, hfsm, Config.releaseReload]

/-- Settles O30: SCAN takes the arm of the release event, and BUZZ sees IDLE. -/
theorem theLastHighResampleConfirmsTheRelease : Obligations.TheLastHighResampleConfirmsTheRelease := by
  intro c s h
  refine ⟨tick c s, exec_tick c s, tickAlways_tick c s, ?_⟩
  simp [scan_of_releaseEvent h]

/-- Settles O31: at 2 or more SCAN counts down, and 1 below such a count does not wrap. -/
theorem aHighResampleCountsTheReleaseDown : Obligations.AHighResampleCountsTheReleaseDown := by
  intro c s hfsm hkey hhigh hcnt
  refine ⟨tick c s, exec_tick c s, tickAlways_tick c s, ?_⟩
  simp [FlagsKept, scan_of_countRelease hfsm hkey hhigh hcnt, hfsm, countRelease_relCnt_toNat hcnt, -countRelease_relCnt]

/-! ### The first observation, and the scanning order -/

/-- What SCAN and BUZZ leave on a first observation (R153). -/
theorem tick_of_firstObservation {c : Lines} {s : State} (hfsm : s.fsm = .idle) (hlow : LowSample c s) :
    FlagsKept s (tick c s) ∧ (tick c s).fsm = .detecting ∧ (tick c s).detCnt = 32 ∧ (tick c s).relCnt = s.relCnt ∧
      (tick c s).keyCode = s.phase ∧ (tick c s).buzzer = s.buzzer := by
  simp [FlagsKept, scan_of_firstObservation hfsm hlow, Config.detectReload]

/-- `n` positions on, the column is `n` further, modulo 4 (R78, R107). -/
theorem add_ofNat_toNat_mod_four (p : Position) (n : Nat) :
    (p + BitVec.ofNat 4 n).toNat % 4 = (p.toNat + n) % 4 := by
  rw [BitVec.toNat_add, BitVec.toNat_ofNat]
  omega

/-- A run of TICKs from IDLE stays in IDLE while each position in scanning order reads 1 (R152). -/
theorem ticks_idle (cols : Nat → Lines) {s : State} (n : Nat) (hfsm : s.fsm = .idle)
    (hhigh : ∀ j, j < n → (cols j).getLsbD ((s.phase.toNat + j) % 4) = true) :
    ∃ t, ticks cols n s = .next t ∧ t.fsm = .idle ∧ t.phase = s.phase + BitVec.ofNat 4 n := by
  induction n with
  | zero => exact ⟨s, rfl, hfsm, by simp⟩
  | succ n ih =>
    obtain ⟨t, ht, hidle, hphase⟩ := ih fun j hj => hhigh j (by omega)
    have hnot : ¬ LowSample (cols n) t := by
      rw [LowSample, hphase, add_ofNat_toNat_mod_four, hhigh n (by omega)]
      decide
    refine ⟨tick (cols n) t, by rw [ticks, ht, andThen_next, exec_tick], ?_, ?_⟩
    · rw [tick_fsm, scan_of_uncounted (.inl ⟨hidle, hnot⟩), hidle]
    · rw [tick_phase, hphase, BitVec.ofNat_add, BitVec.add_assoc]
      rfl

/-- Settles O25: the arm of R153; and over a run, IDLE until the first low sample, which that arm then takes. -/
theorem firstObservationStartsADetection : Obligations.FirstObservationStartsADetection := by
  refine ⟨fun c s hfsm hlow => ⟨_, exec_tick c s, tickAlways_tick c s, tick_of_firstObservation hfsm hlow⟩,
    fun cols s n hfsm hhigh hlow => ?_⟩
  obtain ⟨t, ht, hidle, hphase⟩ := ticks_idle cols n hfsm hhigh
  have hsample : LowSample (cols n) t := by rwa [LowSample, hphase, add_ofNat_toNat_mod_four]
  obtain ⟨-, hdetecting, hcnt, -, hcode, -⟩ := tick_of_firstObservation hidle hsample
  exact ⟨tick (cols n) t, by rw [ticks, ht, andThen_next, exec_tick], hdetecting, hcnt, hcode.trans hphase⟩

/-! ### Abandoning a detection -/

/-- From the position after `k` on, the scan is at `k` again after 15 positions and not before (R108). -/
theorem next_add_ofNat_eq_iff (k : Position) {n : Nat} (hn : n < 16) : k + 1 + BitVec.ofNat 4 n = k ↔ n = 15 := by
  rw [← BitVec.toNat_inj, BitVec.toNat_add, BitVec.toNat_add, BitVec.toNat_ofNat]
  change ((k.toNat + 1) % 16 + n % 16) % 16 = k.toNat ↔ n = 15
  omega

/-- What SCAN and BUZZ leave when a detection is abandoned (R155). -/
theorem tick_of_abandon {c : Lines} {s : State} (hfsm : s.fsm = .detecting) (hkey : AtKey s) (hhigh : ¬ LowSample c s) :
    FlagsKept s (tick c s) ∧ (tick c s).fsm = .idle ∧ (tick c s).detCnt = 0 ∧ (tick c s).relCnt = s.relCnt ∧
      (tick c s).keyCode = s.keyCode ∧ (tick c s).buzzer = s.buzzer := by
  simp [FlagsKept, scan_of_abandon hfsm hkey hhigh]

/-- Settles O26: the arm of R155 whatever the count; then a first observation one position on, and the phases of a run. -/
theorem aHighResampleAbandonsTheDetection : Obligations.AHighResampleAbandonsTheDetection := by
  intro c s hfsm hkey hhigh
  obtain ⟨hflags, hidle, hcnt, hrel, hcode, hbuzzer⟩ := tick_of_abandon hfsm hkey hhigh
  have hphase : (tick c s).phase = s.keyCode + 1 := (tick_phase c s).trans (congrArg (· + 1) hkey)
  refine ⟨tick c s, exec_tick c s, tickAlways_tick c s, hflags, hidle, hcnt, hrel, hcode, hbuzzer, fun d hlow => ?_,
    fun cols n hn => ?_⟩
  · obtain ⟨-, hdetecting, hreload, -, hnext, -⟩ := tick_of_firstObservation hidle hlow
    exact ⟨_, exec_tick d _, hdetecting, hreload, hnext.trans hphase⟩
  · obtain ⟨u, hu, hp⟩ := ticks_phase cols n (tick c s)
    exact ⟨u, hu, by rw [hp, hphase, next_add_ofNat_eq_iff _ hn]⟩

/-! ### The one column bit -/

/-- In IDLE the sample decides whether a detection starts (R152, R153). -/
theorem scan_idle_fsm_iff {c : Lines} {s : State} (hfsm : s.fsm = .idle) :
    (scan c s).fsm = .detecting ↔ sampleLow s.phase c = true := by
  cases hl : sampleLow s.phase c with
  | true => simp [scan_idle_low hfsm hl]
  | false => simp [scan_idle_high hfsm hl, hfsm]

/-- A re-sample in DETECTING leads to IDLE only if it is not low (R155 to R157). -/
theorem resampleDetecting_fsm_iff {s : State} (hfsm : s.fsm = .detecting) (low : Bool) :
    (resampleDetecting low s).fsm ≠ .idle ↔ low = true := by
  cases low with
  | false => simp [resampleDetecting]
  | true =>
    rw [resampleDetecting, if_neg (by decide)]
    split
    · simp
    · simp [hfsm]

/-- A high re-sample in PUSHED takes 1 from the count, down to 0 (R160, R161). -/
theorem resamplePushed_high_relCnt_toNat (s : State) :
    (resamplePushed false s).relCnt.toNat = s.relCnt.toNat - 1 := by
  rw [resamplePushed, if_neg (by decide)]
  split
  case isTrue hcnt => exact (Nat.sub_eq_zero_of_le ((toNat_le_one_iff _).mpr hcnt)).symm
  case isFalse hcnt =>
    rw [← toNat_le_one_iff] at hcnt
    exact countRelease_relCnt_toNat (by omega)

/-- Of the column lines SCAN reads the sample alone (R150). -/
theorem scan_congr_lines {c d : Lines} {s : State} (h : sampleLow s.phase c = sampleLow s.phase d) :
    scan c s = scan d s := by
  simp only [scan, h]

/-- SCAN alone reads the column lines (R101). -/
theorem tick_congr_lines {c d : Lines} {s : State} (h : scan c s = scan d s) : tick c s = tick d s := by
  rw [tick, tick, scan_render, scan_render, h]

/-- Settles O32: the sample as a column bit; what each state makes of it; and two settings of the lines that SCAN cannot tell apart,
for they have one sample or no sample counts. -/
theorem oneColumnBitIsRead : Obligations.OneColumnBitIsRead := by
  refine ⟨fun c s => sampleLow_iff s.phase c, fun c s => ⟨tick c s, exec_tick c s, fun hfsm => ?_, fun hfsm hkey => ?_,
    fun hfsm hkey => ?_⟩, fun c d s h => ?_⟩
  · rw [tick_fsm, scan_idle_fsm_iff hfsm]
  · rw [tick_fsm, scan_detecting hfsm hkey, resampleDetecting_fsm_iff hfsm]
  · rw [tick_relCnt, scan_pushed hfsm hkey]
    cases sampleLow s.phase c with
    | true => exact rfl
    | false => exact resamplePushed_high_relCnt_toNat s
  · have hscan : scan c s = scan d s := by
      obtain hbit | ⟨hfsm, hkey⟩ := h
      · exact scan_congr_lines (by rw [sampleLow_eq, sampleLow_eq, hbit])
      · rw [scan_other hfsm hkey, scan_other hfsm hkey]
    exact ⟨tick c s, exec_tick c s, by rw [tick_congr_lines hscan, exec_tick], tick_rowSel c s,
      (positionAt_rowOf_columnOf s.phase).symm⟩

end Sys2Proof.Machine
end

section
/-! PROOFS. The buzzer driver of spec/44_buzzer_driver.md: what a TICK, a word and an operation leave in `buzzer` (R180). -/

namespace Sys2Proof.Machine

/-- A TICK toggles the buzzer exactly if it ends in PUSHED: ADVANCE leaves the `fsm` that BUZZ reads (R180). -/
theorem tick_buzzer_eq_xor (c : Lines) (s : State) :
    (tick c s).buzzer = xor s.buzzer (decide ((tick c s).fsm = .pushed)) := by
  rw [tick_buzzer, ← tick_fsm]
  split
  case isTrue h => rw [decide_eq_true h, Bool.xor_true]
  case isFalse h => rw [decide_eq_false h, Bool.xor_false]

/-- Without RESET a word changes the buzzer by its TICK alone (R180). -/
theorem strobed_buzzer (w : Opw) (s : State) :
    (strobed w s).buzzer =
      if fieldTick w = true then xor s.buzzer (decide ((strobed w s).fsm = .pushed)) else s.buzzer := by
  rw [strobed_eq]
  cases fieldTick w with
  | true => exact tick_buzzer_eq_xor (fieldColN w) (hostStrobed w s)
  | false => rfl

/-- Settles O23: words, with RESET and without; then each operation. -/
theorem buzzerTogglesExactlyWhilePushed : Obligations.BuzzerTogglesExactlyWhilePushed := by
  refine ⟨fun w s => ?_, fun i s => ?_⟩
  · cases hw : fieldRst w with
    | true => exact ⟨_, stepWord_reset hw s, resetRegisters_buzzer s⟩
    | false => exact ⟨_, stepWord_strobed hw s, strobed_buzzer w s⟩
  · cases i with
    | reset => exact ⟨_, exec_reset s, resetRegisters_buzzer s⟩
    | tick c => exact ⟨_, exec_tick c s, tick_buzzer_eq_xor c s⟩
    | clrp => exact ⟨_, exec_clrp s, clearPush_buzzer s⟩
    | clrr => exact ⟨_, exec_clrr s, clearRelease_buzzer s⟩
    | wrd j g => exact ⟨_, exec_wrd j g s, storeSlot_buzzer s j g⟩
    | nop => exact ⟨_, exec_nop s, rfl⟩

end Sys2Proof.Machine
end

section
/-! PROOFS. The host's operations of spec/45_host_operations.md: CLRP, CLRR and WRD, alone in a word, together, and beside a TICK
(R191 to R193). -/

namespace Sys2Proof.Machine

/-! ### A word that carries one operation -/

theorem execAll_singleton (i : Instr) (s : State) : execAll [i] s = exec i s := by
  rw [execAll_cons]
  cases exec i s <;> rfl

/-- The word written for one operation carries that operation and no other (R71, R86). -/
theorem decodeWord_encode (i : Instr) : decodeWord (encode i) = [i] := by
  cases i with
  | reset => rfl
  | nop => rfl
  | _ => simp [encode, decodeWord, strobedOps]

/-- The word written for one operation performs it (R86). -/
theorem stepWord_encode (i : Instr) (s : State) : stepWord (encode i) s = exec i s := by
  rw [stepWord, decodeWord_encode, execAll_singleton]

/-! ### Clearing a flag -/

/-- Clearing a flag that is 0 changes nothing (R191). -/
theorem clearPush_of_clear {s : State} (h : s.pushConfirmed = false) : clearPush s = s := by
  rw [clearPush, ← h]

/-- As `clearPush_of_clear` (R192). -/
theorem clearRelease_of_clear {s : State} (h : s.releaseConfirmed = false) : clearRelease s = s := by
  rw [clearRelease, ← h]

/-- CLRP and CLRR may be given in one word (R192). -/
theorem stepWord_clrp_clrr (s : State) : stepWord 0x3F00 s = .next (clearRelease (clearPush s)) := by
  have hdecode : decodeWord 0x3F00 = [.clrp, .clrr] := by decide
  rw [stepWord, hdecode, execAll_cons, exec_clrp, andThen_next, execAll_singleton, exec_clrr]

/-- The event of a word sets its flag, whatever the word clears: the clear comes first (R191, R192). -/
theorem stepWord_sets_flag_of_event {w : Opw} (hTick : TicksIn w) (s : State) :
    ∃ t, stepWord w s = .next t ∧ (PushEvent (fieldColN w) s → t.pushConfirmed = true) ∧
      (ReleaseEvent (fieldColN w) s → t.releaseConfirmed = true) := by
  obtain ⟨hr, htick⟩ := hTick
  obtain ⟨hpush, hrelease⟩ := strobed_flags w s
  exact ⟨_, stepWord_strobed hr s, fun h => hpush.mpr (.inl ⟨htick, h⟩), fun h => hrelease.mpr (.inl ⟨htick, h⟩)⟩

/-- A latch with the equation of R26 that is 0 stays 0 in a step without its event. -/
theorem latch_stays_clear {flag flag' clear rst tick : Bool} {event : Prop}
    (hlatch : flag' = true ↔ rst = false ∧ ((tick = true ∧ event) ∨ (flag = true ∧ clear = false)))
    (hclear : flag = false) (hno : ¬ ((rst = false ∧ tick = true) ∧ event)) : flag' = false := by
  rw [Bool.eq_false_iff, ne_eq, hlatch, hclear]
  rintro ⟨hr, ⟨htick, hevent⟩ | ⟨hset, -⟩⟩
  · exact hno ⟨⟨hr, htick⟩, hevent⟩
  · exact Bool.false_ne_true hset

/-- Nothing but its event brings a flag from 0 to 1. -/
theorem stepWord_keeps_clear_flag (w : Opw) (s : State) :
    ∃ t, stepWord w s = .next t ∧
      (s.pushConfirmed = false → ¬ (TicksIn w ∧ PushEvent (fieldColN w) s) → t.pushConfirmed = false) ∧
      (s.releaseConfirmed = false → ¬ (TicksIn w ∧ ReleaseEvent (fieldColN w) s) → t.releaseConfirmed = false) := by
  obtain ⟨-, hflags⟩ := flagsAreStickyLatches
  obtain ⟨t, ht, hpush, hrelease⟩ := hflags w s
  exact ⟨t, ht, latch_stays_clear hpush, latch_stays_clear hrelease⟩

/-- Settles O13: CLRP alone is `clearPush`; beside a TICK the flag is what `stepWord_sets_flag_of_event` and
`stepWord_keeps_clear_flag` say. -/
theorem clrpClearsThePushFlagAlone : Obligations.ClrpClearsThePushFlagAlone := by
  refine ⟨fun s => ⟨exec_clrp s, stepWord_encode .clrp s⟩, fun s hclear => ?_,
    fun w s hTick _ hevent => ?_, fun w s hclear hno => ?_⟩
  · rw [exec_clrp, clearPush_of_clear hclear]
  · obtain ⟨t, ht, hpush, -⟩ := stepWord_sets_flag_of_event hTick s
    exact ⟨t, ht, hpush hevent⟩
  · obtain ⟨t, ht, hpush, -⟩ := stepWord_keeps_clear_flag w s
    exact ⟨t, ht, hpush hclear hno⟩

/-- Settles O14: the same two lemmas for the release flag, and the word that carries both clears. -/
theorem clrrClearsTheReleaseFlagAlone : Obligations.ClrrClearsTheReleaseFlagAlone := by
  refine ⟨fun s => ⟨exec_clrr s, stepWord_encode .clrr s, stepWord_clrp_clrr s⟩,
    fun s hclear => ?_, fun w s hTick _ hevent => ?_, fun w s hclear hno => ?_⟩
  · rw [exec_clrr, clearRelease_of_clear hclear]
  · obtain ⟨t, ht, -, hrelease⟩ := stepWord_sets_flag_of_event hTick s
    exact ⟨t, ht, hrelease hevent⟩
  · obtain ⟨t, ht, -, hrelease⟩ := stepWord_keeps_clear_flag w s
    exact ⟨t, ht, hrelease hclear hno⟩

/-! ### Writing a slot -/

/-- In phases 0 to 3 a TICK shows the digit written to slot 0 (R193, R130). -/
theorem tick_storeSlot_zero_seg (c : Lines) {g : Glyph} (hg : g.toNat ≤ 15) {s : State} (hp : s.phase.toNat ≤ 3) :
    (tick c (storeSlot 0 g s)).seg = Config.segTable (g.setWidth 4) := by
  have hphase : (storeSlot 0 g s).phase.toNat < 4 := Nat.lt_succ_of_le hp
  rw [tick_seg_slotZero c hphase, storeSlot_dispBuf, readSlot_writeSlot_same, segPattern_digit hg]

/-- Settles O15: WRD is `storeSlot`; a TICK of its word renders the slot it wrote; then R193's example. -/
theorem wrdWritesOneSlotWhole : Obligations.WrdWritesOneSlotWhole := by
  refine ⟨fun i g s => ⟨_, exec_wrd i g s, readSlot_writeSlot_same _ i g, fun j hj => readSlot_writeSlot_other _ g hj, rfl⟩,
    fun w s hTick hd hrow => ?_, fun s => ?_⟩
  · obtain ⟨hr, htick⟩ := hTick
    have hseg : (strobed w s).seg = segPattern (fieldDispData w) := by
      rw [(strobed_tick_wrd htick hd s).2, ← hrow, readSlot_writeSlot_same]
    refine ⟨_, stepWord_strobed hr s, hseg, fun hblank => ?_⟩
    rw [hseg, segPattern_blank (by omega)]
  · exact ⟨storeSlot 0 10 s, tick 0xF (storeSlot 0 10 s), stepWord_encode (.wrd 0 10) s,
      readSlot_writeSlot_same _ 0 10,
      fun hp => ⟨stepWord_encode (.tick 0xF) _, tick_storeSlot_zero_seg 0xF (by decide) hp⟩⟩

end Sys2Proof.Machine
end

section
/-! PROOFS. The exceptions of spec/60_exceptions.md: nothing faults or is refused (R210), and a run without TICKs
holds the scanner and the outputs (R225). -/

namespace Sys2Proof.Machine

/-! ### Every operation, word and step answers a next state -/

theorem exec_total (i : Instr) (s : State) : ∃ t, exec i s = .next t := by
  cases i with
  | reset => exact ⟨_, exec_reset s⟩
  | tick c => exact ⟨_, exec_tick c s⟩
  | clrp => exact ⟨_, exec_clrp s⟩
  | clrr => exact ⟨_, exec_clrr s⟩
  | wrd j g => exact ⟨_, exec_wrd j g s⟩
  | nop => exact ⟨_, exec_nop s⟩

/-- Settles O9: each operation has its arm, every word is legal, and a step performs the word it fetches. -/
theorem nothingFaultsAndNothingIsRefused : Obligations.NothingFaultsAndNothingIsRefused :=
  ⟨exec_total, stepWord_total, fun s => stepWord_total (fetch s).1 (fetch s).2⟩

/-! ### Runs without a TICK -/

theorem tickCount_eq_zero_iff (ws : List Opw) : tickCount ws = 0 ↔ ∀ w ∈ ws, ¬ TicksIn w := by
  simp only [tickCount, List.length_eq_zero_iff, List.filter_eq_nil_iff, decide_eq_true_eq]

/-- A run from a state with `P` ends in one, if the words of this run keep `P`; `runWords_keeps` asks it of every word. -/
theorem runWords_keeps_of_mem (P : State → Prop) {ws : List Opw}
    (hStep : ∀ w ∈ ws, ∀ s, P s → ∃ t, stepWord w s = .next t ∧ P t) (s : State) (hs : P s) :
    ∃ t, runWords ws s = .next t ∧ P t := by
  induction ws generalizing s with
  | nil => exact ⟨s, runWords_nil s, hs⟩
  | cons w ws ih =>
    obtain ⟨hw, hws⟩ := List.forall_mem_cons.mp hStep
    obtain ⟨t, ht, hPt⟩ := hw s hs
    rw [runWords_cons, ht, andThen_next]
    exact ih hws t hPt

/-- `t` has the scanner's registers and the outputs of `s`. -/
def SameScannerAndOutputs (s t : State) : Prop := SameScanner s t ∧ t.seg = s.seg

theorem SameScannerAndOutputs.refl (s : State) : SameScannerAndOutputs s s :=
  ⟨⟨rfl, rfl, rfl, rfl, rfl, rfl, rfl, rfl⟩, rfl⟩

/-- The host's strobes write the flags and the slots alone (R196). -/
theorem SameScannerAndOutputs.hostStrobed {s t : State} (h : SameScannerAndOutputs s t) (w : Opw) :
    SameScannerAndOutputs s (hostStrobed w t) := by
  simpa [SameScannerAndOutputs, SameScanner] using h

/-- Settles O18: no word of the run resets or ticks, so each performs its host strobes alone. -/
theorem withoutTicksTheBlockHolds : Obligations.WithoutTicksTheBlockHolds := by
  intro ws s hNoReset hNoTick
  refine runWords_keeps_of_mem (SameScannerAndOutputs s) (fun w hw u hu => ?_) s (.refl s)
  have hr : fieldRst w = false := hNoReset w hw
  have ht : fieldTick w = false := Bool.eq_false_iff.mpr fun h => (tickCount_eq_zero_iff ws).mp hNoTick w hw ⟨hr, h⟩
  exact ⟨_, stepWord_hostStrobed hr ht u, hu.hostStrobed w⟩

end Sys2Proof.Machine
end

section
/-! PROOFS. The ideal keypad of spec/70_reset_and_hazards.md: the lines it answers a TICK with (R251), read by column number, and
the sample they give (R150). -/

namespace Sys2Proof.Machine

/-- Line `c` answers for the key of the selected row in column `c` (R79). -/
theorem idealColumns_getLsbD (K : List Position) (p : Position) (c : Index) :
    (idealColumns K p).getLsbD c.toNat = !K.contains (positionAt (rowOf p) c) := by
  simp only [idealColumns, BitVec.getLsbD_append, BitVec.getLsbD_ofBool]
  obtain rfl | rfl | rfl | rfl : c = 0 ∨ c = 1 ∨ c = 2 ∨ c = 3 := by revert c; decide
  all_goals simp

theorem idealColumns_getLsbD_eq_false_iff (K : List Position) (p : Position) (c : Index) :
    (idealColumns K p).getLsbD c.toNat = false ↔ positionAt (rowOf p) c ∈ K := by
  rw [idealColumns_getLsbD, Bool.not_eq_false', List.contains_iff_mem]

theorem positionAt_rowOf (p : Position) (c : Index) :
    positionAt (rowOf p) c = BitVec.ofNat 4 (4 * (p.toNat / 4) + c.toNat) := by
  rw [← rowOf_toNat, ← positionAt_toNat, BitVec.ofNat_toNat, BitVec.setWidth_eq]

/-- The sample is the line of the phase's own column, and a position is the key of its row and column. -/
theorem sampleLow_idealColumns_iff (K : List Position) (p : Position) :
    sampleLow p (idealColumns K p) = true ↔ p ∈ K := by
  rw [sampleLow_iff, ← columnOf_toNat, idealColumns_getLsbD_eq_false_iff, positionAt_rowOf_columnOf]

/-- Settles O51: each line is read by its column number, and the sample is the line of the phase's column. -/
theorem idealKeypadReadsLowAtClosedKeys : Obligations.IdealKeypadReadsLowAtClosedKeys := by
  refine fun K p => ⟨fun c hc => ?_, fun s hs => ?_⟩
  · have hline := idealColumns_getLsbD_eq_false_iff K p (BitVec.ofNatLT c hc)
    rwa [positionAt_rowOf, BitVec.toNat_ofNatLT] at hline
  · subst hs
    rw [lowSample_iff, sampleLow_idealColumns_iff]

end Sys2Proof.Machine
end

section
/-! PROOFS. Round trips of spec/30_encoding.md: the lists of operations one word can carry (R71) as what the four strobes put there,
and the words written for them (R86). -/

namespace Sys2Proof

/-! ### The lists one word can carry -/

/-- The operations that the four strobes below `rst` put into one word, in the order of R106. -/
def strobeList (clrp clrr : Bool) (write : Option (Index × Glyph)) (lines : Option Lines) : List Instr :=
  (if clrp then [.clrp] else []) ++ (if clrr then [.clrr] else []) ++
    (write.map fun slot => Instr.wrd slot.1 slot.2).toList ++ (lines.map Instr.tick).toList

/-- What a word's strobes select is such a list. -/
theorem strobedOps_eq_strobeList (w : Opw) :
    strobedOps w = strobeList (fieldClrPush w) (fieldClrRelease w)
      (if fieldDispWe w then some (fieldDispIdx w, fieldDispData w) else none)
      (if fieldTick w then some (fieldColN w) else none) := by
  unfold strobedOps strobeList
  cases fieldDispWe w <;> cases fieldTick w <;> rfl

variable (a b : Bool) (write : Option (Index × Glyph)) (lines : Option Lines)

/-- No strobe's operation asks to be alone, and the strobes stand in the order of R106. -/
theorem wellFormedOps_strobeList :
    wellFormedOps (strobeList a b write lines) = !(strobeList a b write lines).isEmpty := by
  cases a <;> cases b <;> cases write <;> cases lines <;> rfl

/-- All of the list comes after place `n` exactly if each strobe that is set does. -/
theorem strobeList_after_iff (n : Nat) :
    (∀ j ∈ strobeList a b write lines, n < (strobePlace j).getD 0) ↔
      a = false ∧ (b = true → n < 1) ∧ (write ≠ none → n < 2) ∧ (lines ≠ none → n < 3) := by
  cases a <;> cases b <;> cases write <;> cases lines <;> simp [strobeList, strobePlace]

/-- A list in the order of R106, without RESET and NOP, is what the strobes put into one word: an operation that comes before the
others leaves unset its own strobe and all before it. -/
theorem eq_strobeList_of_inStepOrder {ops : List Instr} (hstrobes : ∀ i ∈ ops, (strobePlace i).isSome = true)
    (horder : inStepOrder ops = true) : ∃ a b write lines, ops = strobeList a b write lines := by
  induction ops with
  | nil => exact ⟨false, false, none, none, rfl⟩
  | cons i rest ih =>
    obtain ⟨hi, hrest⟩ := List.forall_mem_cons.mp hstrobes
    obtain ⟨hafter, hrestOrder⟩ := Bool.and_eq_true_iff.mp horder
    obtain ⟨a, b, write, lines, rfl⟩ := ih hrest hrestOrder
    simp only [List.all_eq_true, decide_eq_true_eq, strobeList_after_iff] at hafter
    obtain ⟨rfl, hunset⟩ := hafter
    cases i with
    | reset => exact absurd hi (by decide)
    | nop => exact absurd hi (by decide)
    | clrp => exact ⟨true, b, write, lines, rfl⟩
    | clrr =>
      obtain rfl : b = false := by simpa [strobePlace] using hunset
      exact ⟨false, true, write, lines, rfl⟩
    | wrd j g =>
      obtain ⟨rfl, rfl⟩ : b = false ∧ write = none := by simpa [strobePlace] using hunset
      exact ⟨false, false, some (j, g), lines, rfl⟩
    | tick c =>
      obtain ⟨rfl, rfl, rfl⟩ : b = false ∧ write = none ∧ lines = none := by simpa [strobePlace] using hunset
      exact ⟨false, false, none, some c, rfl⟩

/-- One word carries RESET alone, NOP alone, or what at least one strobe puts there (R71). -/
theorem wellFormedOps_cases {ops : List Instr} (h : wellFormedOps ops = true) :
    ops = [.reset] ∨ ops = [.nop] ∨ ops ≠ [] ∧ ∃ a b write lines, ops = strobeList a b write lines := by
  simp only [wellFormedOps, Bool.and_eq_true, someOperation, aloneWhereNeeded, Bool.or_eq_true, decide_eq_true_eq,
    Bool.not_eq_true', List.isEmpty_eq_false_iff, List.all_eq_true] at h
  obtain ⟨⟨hsome, halone⟩, horder⟩ := h
  by_cases hstrobes : ∀ i ∈ ops, (strobePlace i).isSome = true
  · exact .inr (.inr ⟨hsome, eq_strobeList_of_inStepOrder hstrobes horder⟩)
  · obtain ⟨i, rfl⟩ : ∃ i, ops = [i] := List.length_eq_one_iff.mp <|
      Nat.le_antisymm (halone.resolve_right hstrobes) (List.length_pos_iff.mpr hsome)
    cases i with
    | reset => exact .inl rfl
    | nop => exact .inr (.inl rfl)
    | _ => exact absurd (by simp [strobePlace]) hstrobes

/-! ### Encoding and decoding -/

/-- The word written for such a list has its strobes and their operands (R86). -/
theorem encodeOps_strobeList :
    encodeOps (strobeList a b write lines) =
      assemble false lines.isSome (lines.getD 0xF) a b write.isSome (write.getD (0, 0)).1 (write.getD (0, 0)).2 := by
  cases a <;> cases b <;> cases write <;> cases lines <;> rfl

/-- The strobes of a word are read back. -/
theorem strobedOps_encodeOps_strobeList :
    strobedOps (encodeOps (strobeList a b write lines)) = strobeList a b write lines := by
  rw [strobedOps_eq_strobeList, encodeOps_strobeList]
  cases write <;> cases lines <;> simp

theorem decodeWord_of_strobed {w : Opw} (hr : fieldRst w = false) (h : strobedOps w ≠ []) : decodeWord w = strobedOps w := by
  simp [decodeWord, hr, h]

theorem decodeWord_encodeOps {ops : List Instr} (h : wellFormedOps ops = true) : decodeWord (encodeOps ops) = ops := by
  obtain rfl | rfl | ⟨hsome, a, b, write, lines, rfl⟩ := wellFormedOps_cases h
  · rfl
  · rfl
  · have hback := strobedOps_encodeOps_strobeList a b write lines
    rw [decodeWord_of_strobed (by rw [encodeOps_strobeList, fieldRst_assemble]) (by rwa [hback]), hback]

/-- Every word is legal (R84): what it carries is RESET, NOP, or what its strobes select. -/
theorem wellFormedOps_decodeWord (w : Opw) : wellFormedOps (decodeWord w) = true := by
  unfold decodeWord
  split
  · rfl
  · split
    · rfl
    case isFalse hsome =>
      rw [strobedOps_eq_strobeList] at hsome ⊢
      rw [wellFormedOps_strobeList, Bool.not_eq_true', Bool.eq_false_iff]
      exact hsome

end Sys2Proof

namespace Sys2Proof.Machine

/-- Settles O3: one operation by its own word; a list by the cases of what one word can carry. -/
theorem decodeOfEncodeIsTheSame : Obligations.DecodeOfEncodeIsTheSame :=
  ⟨fun i _ => decodeWord_encode i, fun _ => decodeWord_encodeOps⟩

/-- Settles O4: the decoded list is well-formed, and so is read back. -/
theorem everyWordDecodesWellFormed : Obligations.EveryWordDecodesWellFormed :=
  fun w => ⟨wellFormedOps_decodeWord w, decodeWord_encodeOps (wellFormedOps_decodeWord w)⟩

/-- Settles O1: sixteen closed words, which the decoder computes. -/
theorem wordsOfTheSpecDecode : Obligations.WordsOfTheSpecDecode := by
  unfold Obligations.WordsOfTheSpecDecode
  decide

end Sys2Proof.Machine
end

section
/-! PROOFS. The step and the word: the word a step takes (spec/40_tick_scheduler.md R106), several operations in one word
(spec/20_memory.md R55), what a host word leaves alone (R196), and the reference host's clears (R197). -/

namespace Sys2Proof.Machine

/-! ### The word a step takes -/

theorem step_of_inputs_cons {s : State} {w : Opw} {rest : List Opw} (h : s.inputs = w :: rest) :
    step s = stepWord w { s with inputs := rest } := by
  simp only [step, fetch, h]

theorem step_of_inputs_nil {s : State} (h : s.inputs = []) :
    step s = stepWord (Config.freeOpw s.draws) { s with draws := s.draws + 1 } := by
  simp only [step, fetch, h]

/-- The word presented is the one the next step takes. -/
theorem step_present (w : Opw) (s : State) : step (present w s) = stepWord w s := step_of_inputs_cons rfl

theorem withFetchWord_toNat (w : Opw) (s : State) : s.withFetchWord 16 w.toNat = present w s := by
  rw [State.withFetchWord, Nat.mod_eq_of_lt w.isLt, BitVec.ofNat_toNat, BitVec.setWidth_eq]

/-- Settles O6: the step is that of the word taken, by whether one is listed. -/
theorem stepRunsTheDecodedOperation : Obligations.StepRunsTheDecodedOperation := by
  refine ⟨fun s w rest i h hdecode _ => ?_, fun s w rest h => step_of_inputs_cons h, fun s h => step_of_inputs_nil h,
    fun s i => ?_⟩
  · rw [step_of_inputs_cons h, stepWord, hdecode, execAll_singleton]
  · rw [withFetchWord_toNat, step_present]

/-- Settles O10, operation by operation. -/
theorem noOperationTouchesTheModelsOwnFields : Obligations.NoOperationTouchesTheModelsOwnFields := by
  intro i s
  cases i with
  | reset => exact ⟨_, exec_reset s, resetRegisters_inputs s, resetRegisters_draws s⟩
  | tick c => exact ⟨_, exec_tick c s, tick_inputs c s, tick_draws c s⟩
  | clrp => exact ⟨_, exec_clrp s, clearPush_inputs s, clearPush_draws s⟩
  | clrr => exact ⟨_, exec_clrr s, clearRelease_inputs s, clearRelease_draws s⟩
  | wrd j g => exact ⟨_, exec_wrd j g s, storeSlot_inputs s j g, storeSlot_draws s j g⟩
  | nop => exact ⟨_, exec_nop s, rfl, rfl⟩

/-! ### Several operations in one word -/

/-- A run over words of one operation each performs the operations in turn. -/
theorem runWords_map_encode (ops : List Instr) (s : State) : runWords (ops.map encode) s = execAll ops s := by
  induction ops generalizing s with
  | nil => rfl
  | cons i ops ih =>
    obtain ⟨t, ht⟩ := exec_total i s
    simp only [List.map_cons, runWords_cons, stepWord_encode, execAll_cons, ht, andThen_next, ih]

/-- Settles O8: the word performs the operations it decodes to, and so does the run over their words. -/
theorem combinedWordEqualsSingleSteps : Obligations.CombinedWordEqualsSingleSteps :=
  fun w s => (runWords_map_encode (decodeWord w) s).symm

/-! ### What a host word leaves alone -/

/-- A host word clears flags and sets none (R196). -/
theorem hostStrobed_sets_no_flag (w : Opw) (s : State) :
    ((hostStrobed w s).pushConfirmed = true → s.pushConfirmed = true) ∧
      ((hostStrobed w s).releaseConfirmed = true → s.releaseConfirmed = true) :=
  ⟨fun h => (Bool.and_eq_true_iff.mp h).1, fun h => (Bool.and_eq_true_iff.mp h).1⟩

/-- Settles O16: such a word performs its host strobes alone, and a TICK keeps states apart in the flags only. -/
theorem hostOperationsNeverTouchTheScanner : Obligations.HostOperationsNeverTouchTheScanner := by
  refine ⟨fun w s hr ht => ⟨_, stepWord_hostStrobed hr ht s, hostStrobed_fsm w s, hostStrobed_detCnt w s,
    hostStrobed_relCnt w s, hostStrobed_phase w s, hostStrobed_keyCode w s, hostStrobed_buzzer w s, hostStrobed_rowSel w s,
    hostStrobed_digSel w s, hostStrobed_seg w s, hostStrobed_sets_no_flag w s⟩, fun c s p r => ?_⟩
  have h : SameButFlags s { s with pushConfirmed := p, releaseConfirmed := r } := rfl
  exact ⟨_, _, exec_tick c s, exec_tick c _, h.tick c⟩

/-- Settles O57: the output pins are registers that no host strobe writes, the input pins the fields of an assembled word. -/
theorem thePinsAreTheRegistersThemselves : Obligations.ThePinsAreTheRegistersThemselves :=
  ⟨fun _ => rfl, fun _ s hr ht => ⟨_, stepWord_hostStrobed hr ht s, rfl⟩,
    fun r t c a b d i g => ⟨fieldRst_assemble r t c a b d i g, fieldTick_assemble r t c a b d i g,
      fieldColN_assemble r t c a b d i g, fieldClrPush_assemble r t c a b d i g, fieldClrRelease_assemble r t c a b d i g,
      fieldDispWe_assemble r t c a b d i g, fieldDispIdx_assemble r t c a b d i g,
      fieldDispData_assemble r t c a b d i g⟩⟩

/-! ### Two runs that ask the same of the tick engine -/

theorem sameScanner_resetRegisters (s u : State) : SameScanner (resetRegisters s) (resetRegisters u) :=
  ⟨rfl, rfl, rfl, rfl, rfl, rfl, rfl, rfl⟩

/-- Host strobes write no register of the scanner, whichever words they stand in (R196). -/
theorem SameScanner.hostStrobed {s u : State} (h : SameScanner s u) (w v : Opw) :
    SameScanner (hostStrobed w s) (hostStrobed v u) := h

/-- A TICK computes the scanner's registers from themselves and the column lines alone. -/
theorem SameScanner.tick {s u : State} (h : SameScanner s u) (c : Lines) : SameScanner (tick c s) (tick c u) := by
  obtain ⟨hphase, hfsm, hdet, hrel, hkey, hbuzzer, -, -⟩ := h
  obtain ⟨hfsm', hdet', hrel', hkey'⟩ := scan_congr (c := c) hphase hfsm hdet hrel hkey (by rw [hphase])
  simp [SameScanner, hphase, hfsm', hdet', hrel', hkey', hbuzzer]

/-- The step lemma of the two runs. -/
theorem SameScanner.stepWord {s u : State} (h : SameScanner s u) {w v : Opw} (hwv : SameForScanner w v) :
    ∃ t x, stepWord w s = .next t ∧ stepWord v u = .next x ∧ SameScanner t x := by
  obtain ⟨hrst, htick, hcols⟩ := hwv
  cases hw : fieldRst w with
  | true => exact ⟨_, _, stepWord_reset hw s, stepWord_reset (hrst ▸ hw) u, sameScanner_resetRegisters s u⟩
  | false =>
    refine ⟨_, _, stepWord_strobed hw s, stepWord_strobed (hrst ▸ hw) u, ?_⟩
    rw [strobed_eq, strobed_eq, ← htick]
    have hhost : SameScanner (Machine.hostStrobed w s) (Machine.hostStrobed v u) := h.hostStrobed w v
    split
    case isTrue hw =>
      rw [← hcols hw]
      exact hhost.tick _
    case isFalse => exact hhost

/-- Settles O17, by induction on the two runs side by side. -/
theorem hostNeverInfluencesTheScanner : Obligations.HostNeverInfluencesTheScanner := by
  intro ws vs s u hwords
  induction hwords generalizing s u with
  | nil => exact fun h => ⟨s, u, rfl, rfl, h⟩
  | cons hwv _ ih =>
    intro h
    obtain ⟨t, x, ht, hx, htx⟩ := h.stepWord hwv
    rw [runWords_cons, runWords_cons, ht, hx, andThen_next, andThen_next]
    exact ih t x htx

/-! ### The reference host clears both flags -/

/-- Settles O55: the moves' effects in turn; with a TICK between, the flag already cleared is what the TICK's event makes it, and the
second clear does not touch it. -/
theorem theReferenceHostClearsBothFlags : Obligations.TheReferenceHostClearsBothFlags := by
  refine ⟨fun s => ⟨_, moveClosed_host .oneWord _, rfl, rfl⟩, fun s way other hway => ?_, fun s c other => ?_,
    fun s c other => ?_⟩
  · cases way with
    | oneWord => exact absurd rfl hway
    | pushFirst => exact ⟨⟨.waitingForPush, clearRelease (clearPush s)⟩, by simp [hostNext, hostEffect], rfl, rfl⟩
    | releaseFirst => exact ⟨⟨.waitingForPush, clearPush (clearRelease s)⟩, by simp [hostNext, hostEffect], rfl, rfl⟩
  · refine ⟨⟨.waitingForPush, clearRelease (tick c (clearPush s))⟩, by simp [hostNext, hostEffect], rfl, rfl, ?_⟩
    rw [clearRelease_pushConfirmed, tick_pushConfirmed, (scan_flags c _).1, clearPush_pushConfirmed]
    exact or_iff_left Bool.false_ne_true
  · refine ⟨⟨.waitingForPush, clearPush (tick c (clearRelease s))⟩, by simp [hostNext, hostEffect], rfl, rfl, ?_⟩
    rw [clearPush_releaseConfirmed, tick_releaseConfirmed, (scan_flags c _).2, clearRelease_releaseConfirmed]
    exact or_iff_left Bool.false_ne_true

end Sys2Proof.Machine
end

section
/-! PROOFS. The invariants: the debounce state and its counters (spec/10_state.md R36), the select lines (R37) and the buzzer's level
(spec/44_buzzer_driver.md R181, R182), each by what RESET establishes and a TICK keeps; and the Releasing predicate (R27). -/

namespace Sys2Proof.Machine

/-! ### A property that every step keeps -/

/-- `P` holds after RESET, is blind to the model's own fields and to the host's strobes, and is kept by TICK. -/
structure StepInvariant (P : State → Prop) : Prop where
  reset : ∀ s, P (resetRegisters s)
  presented : ∀ s inputs draws, P s → P { s with inputs := inputs, draws := draws }
  host : ∀ w s, P s → P (hostStrobed w s)
  tick : ∀ c s, P s → P (tick c s)

namespace StepInvariant

variable {P : State → Prop} (hP : StepInvariant P)
include hP

theorem stepWord (w : Opw) {s t : State} (hs : P s) (h : stepWord w s = .next t) : P t := by
  cases hw : fieldRst w with
  | true =>
    rw [stepWord_reset hw] at h
    cases h
    exact hP.reset s
  | false =>
    rw [stepWord_strobed hw, strobed_eq] at h
    cases h
    split
    · exact hP.tick _ _ (hP.host w s hs)
    · exact hP.host w s hs

theorem step {s t : State} (hs : P s) (h : step s = .next t) : P t := by
  obtain ⟨w, rest, hin, -⟩ | ⟨hin, -⟩ := fetch_cases s
  · rw [step_of_inputs_cons hin] at h
    exact hP.stepWord w (hP.presented s rest s.draws hs) h
  · rw [step_of_inputs_nil hin] at h
    exact hP.stepWord _ (hP.presented s s.inputs (s.draws + 1) hs) h

/-- So it holds in every state reachable from reset by any sequence of words. -/
theorem reachable (ws : List Opw) : ∃ t, runWords ws State.reset = .next t ∧ P t :=
  runWords_keeps P (fun w _ _ hs h => hP.stepWord w hs h) ws State.reset (hP.reset State.reset)

end StepInvariant

/-! ### The debounce invariant -/

/-- SCAN keeps R36, arm by arm: a reload sets a counter to 32, a count goes down from at least 2, and an arm that leaves a state of
`fsm` leaves its counter 0. -/
theorem debounceInv_scan (c : Lines) {s : State} (hs : DebounceInv s) : DebounceInv (scan c s) := by
  obtain ⟨hidle, hdetecting, hpushed⟩ := hs
  obtain ⟨-, -, hscan⟩ | ⟨hfsm, -, hscan⟩ | ⟨-, -, hscan⟩ | ⟨hfsm, -, -, hscan⟩ | ⟨hfsm, -, -, -, hscan⟩ |
    ⟨hfsm, -, -, hcnt, hscan⟩ | ⟨hfsm, -, -, hscan⟩ | ⟨hfsm, -, -, -, hscan⟩ | ⟨hfsm, -, -, hcnt, hscan⟩ := scan_cases c s
  · rw [hscan]
    exact ⟨hidle, hdetecting, hpushed⟩
  · simp [hscan, DebounceInv, hidle hfsm, Config.detectReload]
  · rw [hscan]
    exact ⟨hidle, hdetecting, hpushed⟩
  · simp [hscan, DebounceInv, hdetecting hfsm]
  · simp [hscan, DebounceInv, Config.releaseReload]
  · obtain ⟨-, hmax, hrel⟩ := hdetecting hfsm
    rw [← toNat_le_one_iff] at hcnt
    have hdown := countDetect_detCnt_toNat (s := s) (by omega)
    rw [hscan, DebounceInv, hdown, countDetect_fsm, hfsm, countDetect_relCnt]
    simp
    omega
  · simp [hscan, DebounceInv, hfsm, hpushed hfsm, Config.releaseReload]
  · simp [hscan, DebounceInv]
  · obtain ⟨hdet, -, hmax⟩ := hpushed hfsm
    rw [← toNat_le_one_iff] at hcnt
    have hdown := countRelease_relCnt_toNat (s := s) (by omega)
    rw [hscan, DebounceInv, hdown, countRelease_fsm, hfsm, countRelease_detCnt]
    simp
    omega

theorem debounceInv_tick (c : Lines) {s : State} (hs : DebounceInv s) : DebounceInv (tick c s) := by
  simpa only [DebounceInv, tick_fsm, tick_detCnt, tick_relCnt] using debounceInv_scan c hs

theorem debounceInv_reset : DebounceInv State.reset := by decide

theorem stepInvariant_debounceInv : StepInvariant DebounceInv where
  reset _ := debounceInv_reset
  presented _ _ _ h := h
  host _ _ h := h
  tick c _ h := debounceInv_tick c h

/-- Settles O36: RESET establishes the invariant and every TICK keeps it. -/
theorem everyStepKeepsTheDebounceInvariant : Obligations.EveryStepKeepsTheDebounceInvariant :=
  fun _ _ hs h => stepInvariant_debounceInv.step hs h

/-- Under the invariant the counters tell `fsm` (R36). -/
theorem fsm_of_debounceInv {s : State} (hs : DebounceInv s) :
    (s.fsm = .detecting ↔ s.detCnt.toNat ≠ 0) ∧ (s.fsm = .pushed ↔ s.relCnt.toNat ≠ 0) := by
  obtain ⟨hidle, hdetecting, hpushed⟩ := hs
  cases hfsm : s.fsm with
  | idle => simp [hidle hfsm]
  | detecting =>
    obtain ⟨hdet, -, hrel⟩ := hdetecting hfsm
    simp [hrel, Nat.ne_of_gt hdet]
  | pushed =>
    obtain ⟨hdet, hrel, -⟩ := hpushed hfsm
    simp [hdet, Nat.ne_of_gt hrel]

theorem fsmCode_ne_three (f : Fsm) : fsmCode f ≠ 0b11 := by cases f <;> decide

/-- Settles O39: the invariant along runs from reset, and what it says of `fsm`. -/
theorem reachableDebounceStates : Obligations.ReachableDebounceStates := by
  intro ws
  obtain ⟨t, ht, hinv⟩ := stepInvariant_debounceInv.reachable ws
  obtain ⟨hdet, hrel⟩ := fsm_of_debounceInv hinv
  obtain ⟨hidle, hdetecting, hpushed⟩ := hinv
  exact ⟨t, ht, hidle, hdetecting, hpushed, hdet, hrel, fsmCode_ne_three t.fsm⟩

/-! ### Releasing -/

/-- SCAN leaves Releasing where it counts the release down, and where it samples another position in Releasing (R27): a reload and the
push event set the counter to 32. -/
theorem releasing_scan_iff (c : Lines) {s : State} (hs : DebounceInv s) :
    Releasing (scan c s) ↔
      (s.fsm = .pushed ∧ AtKey s ∧ ¬ LowSample c s ∧ 2 ≤ s.relCnt.toNat) ∨ (Releasing s ∧ ¬ AtKey s) := by
  obtain ⟨-, -, hpushed⟩ := hs
  rw [not_lowSample_iff]
  obtain ⟨hfsm, -, hscan⟩ | ⟨hfsm, -, hscan⟩ | ⟨-, hkey, hscan⟩ | ⟨hfsm, -, -, hscan⟩ | ⟨hfsm, -, -, -, hscan⟩ |
    ⟨hfsm, -, -, -, hscan⟩ | ⟨hfsm, hkey, hlow, hscan⟩ | ⟨hfsm, hkey, hlow, hcnt, hscan⟩ |
    ⟨hfsm, hkey, hlow, hcnt, hscan⟩ := scan_cases c s
  · simp [hscan, Releasing, hfsm]
  · simp [hscan, Releasing, hfsm]
  · simp [hscan, AtKey, hkey]
  · simp [hscan, Releasing, hfsm]
  · simp [hscan, Releasing, hfsm, Config.releaseReload]
  · simp [hscan, Releasing, hfsm]
  · rw [hkey] at hlow
    simp [hscan, Releasing, AtKey, hkey, hlow, Config.releaseReload]
  · rw [← toNat_le_one_iff] at hcnt
    simp [hscan, Releasing, AtKey, hkey]
    omega
  · obtain ⟨-, -, hmax⟩ := hpushed hfsm
    rw [← toNat_le_one_iff] at hcnt
    have hdown := countRelease_relCnt_toNat (s := s) (by omega)
    rw [hkey] at hlow
    rw [hscan, Releasing, hdown, countRelease_fsm]
    simp [hfsm, AtKey, hkey, hlow]
    omega

/-- Settles O34: BUZZ and ADVANCE leave what Releasing reads. -/
theorem releasingBeginsAndEndsAtResamples : Obligations.ReleasingBeginsAndEndsAtResamples := by
  intro c s hs
  refine ⟨tick c s, exec_tick c s, ?_⟩
  rw [← releasing_scan_iff c hs, Releasing, tick_fsm, tick_relCnt]

/-! ### The select lines -/

/-- A select of one line is one of four values (R81). -/
theorem onehot4_values : ∀ i : Index,
    onehot4 i = 0b0001 ∨ onehot4 i = 0b0010 ∨ onehot4 i = 0b0100 ∨ onehot4 i = 0b1000 := by decide

/-- After a TICK the selects are those of RENDER, whatever they were (R121). -/
theorem selectInv_tick (c : Lines) (s : State) : SelectInv (tick c s) := by
  rw [SelectInv, tick_rowSel, tick_digSel]
  exact ⟨rfl, onehot4_values (rowOf s.phase)⟩

theorem selectInv_reset : SelectInv State.reset := by decide

theorem stepInvariant_selectInv : StepInvariant SelectInv where
  reset _ := selectInv_reset
  presented _ _ _ h := h
  host _ _ h := h
  tick c s _ := selectInv_tick c s

/-- After a word with a TICK the lines are those of the phase the TICK began with, one before the new one (R37). -/
theorem tick_rowSel_getLsbD_iff (c : Lines) (s : State) {j : Nat} (hj : j < 4) :
    (tick c s).rowSel.getLsbD j = true ↔ j = (((tick c s).phase.toNat + 15) % 16) / 4 := by
  have hbefore : ((tick c s).phase.toNat + 15) % 16 = s.phase.toNat := by
    rw [tick_phase_toNat]
    omega
  rw [hbefore, tick_rowSel, onehot4_rowOf_getLsbD_iff _ hj]

/-- Settles O37: the invariant, and the TICK that follows the host strobes of a word. -/
theorem everyStepKeepsTheSelectLines : Obligations.EveryStepKeepsTheSelectLines := by
  refine ⟨fun s t hs h => stepInvariant_selectInv.step hs h, fun w s hTick => ?_⟩
  obtain ⟨hr, ht⟩ := hTick
  refine ⟨tick (fieldColN w) (hostStrobed w s), ?_, ?_, fun j hj => tick_rowSel_getLsbD_iff _ _ hj⟩
  · rw [stepWord_strobed hr, strobed_eq, if_pos ht]
  · rw [tick_rowSel, tick_digSel]

/-! ### The buzzer -/

/-- SCAN leaves PUSHED exactly on a push event, and in PUSHED unless it is the release event (R162). -/
theorem scan_fsm_eq_pushed_iff (c : Lines) (s : State) :
    (scan c s).fsm = .pushed ↔ PushEvent c s ∨ (s.fsm = .pushed ∧ ¬ ReleaseEvent c s) := by
  simp only [PushEvent, ReleaseEvent, lowSample_iff, AtKey, toNat_le_one_iff]
  obtain ⟨h1, h2, h3⟩ | ⟨h1, h2, h3⟩ | ⟨h1, h2, h3⟩ | ⟨h1, h2, h3, h4⟩ | ⟨h1, h2, h3, h4, h5⟩ | ⟨h1, h2, h3, h4, h5⟩ |
    ⟨h1, h2, h3, h4⟩ | ⟨h1, h2, h3, h4, h5⟩ | ⟨h1, h2, h3, h4, h5⟩ := scan_cases c s <;> simp_all [-BitVec.not_le]

/-- Outside IDLE no arm writes `key_code` (R154 to R161). -/
theorem scan_keyCode_of_ne_idle (c : Lines) {s : State} (h : s.fsm ≠ .idle) : (scan c s).keyCode = s.keyCode := by
  obtain ⟨hfsm, -⟩ | ⟨hfsm, -⟩ | h | h | h | h | h | h | h := scan_cases c s
  · exact absurd hfsm h
  · exact absurd hfsm h
  all_goals simp [h]

/-- A TICK turns the parity of the distance from the key. -/
theorem distance_add_one_odd_iff (p k : Position) :
    (p + 1 - k).toNat % 2 = 1 ↔ ¬ (p - k).toNat % 2 = 1 := by
  bv_omega

/-- The level is kept outside PUSHED: PUSHED is left at the key, where the distance is 0. A TICK that ends in PUSHED turns level and
parity; a push event starts from level 0 at distance 0. -/
theorem buzzerInv_tick (c : Lines) {s : State} (hs : BuzzerInv s) : BuzzerInv (tick c s) := by
  obtain ⟨houtside, hinside⟩ := hs
  rw [BuzzerInv, tick_buzzer_eq_xor, tick_fsm, tick_phase, tick_keyCode]
  refine ⟨fun hend => ?_, fun hend => ?_⟩
  · rw [decide_eq_false hend, Bool.xor_false]
    by_cases hfsm : s.fsm = .pushed
    · obtain ⟨-, hkey, -⟩ : ReleaseEvent c s :=
        by_contra fun hno => hend ((scan_fsm_eq_pushed_iff c s).mpr (.inr ⟨hfsm, hno⟩))
      rw [Bool.eq_false_iff, ne_eq, hinside hfsm, hkey, BitVec.sub_self]
      decide
    · exact houtside hfsm
  · rw [decide_eq_true hend, Bool.xor_true, Bool.not_eq_true']
    obtain ⟨hfsm, hkey, -⟩ | ⟨hfsm, -⟩ := (scan_fsm_eq_pushed_iff c s).mp hend
    · rw [scan_keyCode_of_ne_idle c (by simp [hfsm]), distance_add_one_odd_iff, hkey, BitVec.sub_self]
      exact iff_of_true (houtside (by simp [hfsm])) (by decide)
    · rw [scan_keyCode_of_ne_idle c (by simp [hfsm]), distance_add_one_odd_iff, ← hinside hfsm, Bool.not_eq_true]

theorem buzzerInv_reset : BuzzerInv State.reset := by decide

theorem stepInvariant_buzzerInv : StepInvariant BuzzerInv where
  reset _ := buzzerInv_reset
  presented _ _ _ h := h
  host _ _ h := h
  tick c _ h := buzzerInv_tick c h

/-- Settles O38: RESET establishes the invariant and every TICK keeps it. -/
theorem everyStepKeepsTheBuzzerInvariant : Obligations.EveryStepKeepsTheBuzzerInvariant :=
  fun _ _ hs h => stepInvariant_buzzerInv.step hs h

/-- Settles O40: the hold by the buzzer of one word, the level by the invariant. -/
theorem silenceIsLevelZero : Obligations.SilenceIsLevelZero := by
  refine ⟨fun w s hr => ⟨_, stepWord_strobed hr s, fun hend => ?_⟩, fun ws => ?_,
    fun s => ⟨_, exec_reset s, resetRegisters_buzzer s⟩⟩
  · rw [strobed_buzzer, decide_eq_false hend, Bool.xor_false, ite_self]
  · obtain ⟨t, ht, hlevel, -⟩ := stepInvariant_buzzerInv.reachable ws
    exact ⟨t, ht, hlevel⟩

/-- Settles O35: each invariant is one of closed values. -/
theorem resetMeetsTheInvariants : Obligations.ResetMeetsTheInvariants :=
  ⟨debounceInv_reset, selectInv_reset, buzzerInv_reset⟩

end Sys2Proof.Machine
end

section
/-! PROOFS. Runs of TICKs: the phase of each (spec/00_scope.md R10, spec/40_tick_scheduler.md R108), the count of a detection and of a
release (spec/43_keypad_scanner_debounce.md R164, R165), and the buzzer over a push (spec/44_buzzer_driver.md R181). -/

namespace Sys2Proof.Machine

/-! ### The state after a run of TICKs -/

/-- The state that `ticks` answers. Irreducible, so that no unifier runs hundreds of TICKs. -/
@[irreducible] def ticked (cols : Nat → Lines) (n : Nat) (s : State) : State :=
  match n with
  | 0 => s
  | n + 1 => tick (cols n) (ticked cols n s)

@[simp] theorem ticked_zero (cols : Nat → Lines) (s : State) : ticked cols 0 s = s := by with_unfolding_all rfl
theorem ticked_succ (cols : Nat → Lines) (n : Nat) (s : State) :
    ticked cols (n + 1) s = tick (cols n) (ticked cols n s) := by with_unfolding_all rfl

theorem ticks_eq_ticked (cols : Nat → Lines) (n : Nat) (s : State) : ticks cols n s = .next (ticked cols n s) := by
  induction n with
  | zero => rw [ticks, ticked_zero]
  | succ n ih => rw [ticks, ih, andThen_next, exec_tick, ticked_succ]

/-- A claim on the state after a run is one on `ticked`. -/
theorem exists_ticks_iff (cols : Nat → Lines) (n : Nat) (s : State) (P : State → Prop) :
    (∃ t, ticks cols n s = .next t ∧ P t) ↔ P (ticked cols n s) := by
  simp [ticks_eq_ticked]

theorem ticked_phase (cols : Nat → Lines) (n : Nat) (s : State) :
    (ticked cols n s).phase = s.phase + BitVec.ofNat 4 n :=
  (exists_ticks_iff cols n s (·.phase = s.phase + BitVec.ofNat 4 n)).mp (ticks_phase cols n s)

/-! ### The phase -/

/-- From `p` the scan is at `k` again after the distance from `p` to `k`, modulo 16. -/
theorem add_ofNat_eq_iff (p k : Position) (n : Nat) : p + BitVec.ofNat 4 n = k ↔ n % 16 = (k - p).toNat := by
  rw [← BitVec.toNat_inj, BitVec.toNat_add, BitVec.toNat_sub, BitVec.toNat_ofNat]
  omega

/-- From `p` the scan is at `p` again every 16 TICKs (R108). -/
theorem add_ofNat_eq_self_iff (p : Position) (n : Nat) : p + BitVec.ofNat 4 n = p ↔ n % 16 = 0 := by
  rw [add_ofNat_eq_iff, BitVec.sub_self]
  rfl

/-- Settles O42: the TICK at `p` is the one whose number is the distance to `p`. -/
theorem aSweepVisitsEveryPositionOnce : Obligations.ASweepVisitsEveryPositionOnce := by
  intro cols s
  have hvisit : ∀ j p, (∃ t, ticks cols j s = .next t ∧ t.phase = p) ↔ j % 16 = (p - s.phase).toNat := fun j p => by
    rw [exists_ticks_iff cols j s (·.phase = p), ticked_phase, add_ofNat_eq_iff]
  refine ⟨fun p => ⟨(p - s.phase).toNat, by omega, ?_, fun k hk h => ?_⟩,
    fun n => ⟨_, _, ticks_eq_ticked cols n s, ticks_eq_ticked cols (n + 1) s, fun d hd => ?_⟩,
    (hvisit 16 s.phase).mpr (by simp)⟩
  · rw [hvisit]
    omega
  · rw [hvisit] at h
    omega
  · rw [ticked_succ, tick_digSel, onehot4_rowOf_getLsbD_iff _ hd]
    omega

theorem tickCount_cons (w : Opw) (ws : List Opw) :
    tickCount (w :: ws) = (if TicksIn w then 1 else 0) + tickCount ws := by
  simp only [tickCount, List.filter_cons, decide_eq_true_eq]
  split <;> simp [Nat.add_comm]

/-- Without RESET the phase counts the TICKs, modulo 16 (R10). -/
theorem runWords_phase_toNat (ws : List Opw) (s : State) (hNoReset : NoReset ws) :
    ∃ t, runWords ws s = .next t ∧ t.phase.toNat = (s.phase.toNat + tickCount ws) % 16 := by
  induction ws generalizing s with
  | nil => exact ⟨s, rfl, (Nat.mod_eq_of_lt s.phase.isLt).symm⟩
  | cons w ws ih =>
    obtain ⟨hr, hrest⟩ := List.forall_mem_cons.mp hNoReset
    obtain ⟨t, ht, hphase⟩ := ih (strobed w s) hrest
    refine ⟨t, by rw [runWords_cons, stepWord_strobed hr, andThen_next, ht], ?_⟩
    rw [hphase, strobed_phase_toNat, tickCount_cons]
    simp only [TicksIn, hr, true_and]
    split <;> omega

/-- Settles O41: RESET leaves phase 0. -/
theorem tickNumberIsThePhase : Obligations.TickNumberIsThePhase := by
  intro ws s hNoReset
  obtain ⟨t, ht, hphase⟩ := runWords_phase_toNat ws (resetRegisters s) hNoReset
  refine ⟨t, by rw [runWords_cons, stepWord_encode, exec_reset, andThen_next, ht], ?_⟩
  rw [hphase, resetRegisters_phase]
  simp

/-! ### Counting a detection -/

/-- The sample of the `n`-th TICK is that of the position the run starts at, if it comes back there. -/
theorem lowSample_ticked_iff (cols : Nat → Lines) {n : Nat} (s : State) (hn : n % 16 = 0) :
    LowSample (cols n) (ticked cols n s) ↔ (cols n).getLsbD (s.phase.toNat % 4) = false := by
  rw [LowSample, ticked_phase, (add_ofNat_eq_self_iff _ _).mpr hn]

/-- The run from a first observation on, while the re-samples of its position are low: after `n` TICKs the count has gone down by the
re-samples among the `n - 1` TICKs since (R157). -/
theorem ticked_detecting (cols : Nat → Lines) {s : State} (hidle : s.fsm = .idle) {n : Nat} (h1 : 1 ≤ n) (hn : n ≤ 512)
    (hlow : ∀ j, 16 * j < n → (cols (16 * j)).getLsbD (s.phase.toNat % 4) = false) :
    (ticked cols n s).fsm = .detecting ∧ (ticked cols n s).keyCode = s.phase ∧
      (ticked cols n s).detCnt.toNat = 32 - (n - 1) / 16 ∧ (ticked cols n s).pushConfirmed = s.pushConfirmed := by
  induction n, h1 using Nat.le_induction with
  | base =>
    obtain ⟨⟨hflag, -⟩, hfsm, hcnt, -, hkey, -⟩ := tick_of_firstObservation hidle (hlow 0 (by decide))
    rw [ticked_succ, ticked_zero]
    exact ⟨hfsm, hkey, congrArg BitVec.toNat hcnt, hflag⟩
  | succ n h1 ih =>
    obtain ⟨hfsm, hkey, hcnt, hflag⟩ := ih (by omega) fun j hj => hlow j (by omega)
    have hAtKey : AtKey (ticked cols n s) ↔ n % 16 = 0 := by
      rw [AtKey, hkey, ticked_phase, add_ofNat_eq_self_iff]
    rw [ticked_succ, tick_fsm, tick_keyCode, tick_detCnt, tick_pushConfirmed]
    by_cases hback : n % 16 = 0
    · have hsample : LowSample (cols n) (ticked cols n s) := by
        rw [lowSample_ticked_iff cols s hback, ← hlow (n / 16) (by omega), Nat.mul_div_cancel' (by omega)]
      have hcount : 2 ≤ (ticked cols n s).detCnt.toNat := by omega
      rw [scan_of_countDetect hfsm (hAtKey.mpr hback) hsample hcount, countDetect_detCnt_toNat hcount]
      exact ⟨hfsm, hkey, by omega, hflag⟩
    · rw [scan_of_uncounted (.inr (.inl ⟨hfsm, mt hAtKey.mp hback⟩))]
      exact ⟨hfsm, hkey, by omega, hflag⟩

/-- Settles O43: after 512 TICKs the count is 1, so the next low re-sample is the push event. -/
theorem pushComes512TicksAfterTheFirstObservation : Obligations.PushComes512TicksAfterTheFirstObservation := by
  intro cols s hidle hlow
  refine ⟨fun n h1 hn => ⟨_, ticks_eq_ticked cols n s, ?_⟩, ⟨_, ticks_eq_ticked cols 513 s, ?_⟩⟩
  · obtain ⟨hfsm, hkey, -, hflag⟩ := ticked_detecting cols hidle h1 hn fun j hj => hlow j (by omega)
    exact ⟨hfsm, hkey, hflag⟩
  · obtain ⟨hfsm, hkey, hcnt, -⟩ :=
      ticked_detecting cols hidle (n := 512) (by decide) (Nat.le_refl _) fun j hj => hlow j (by omega)
    have hAtKey : AtKey (ticked cols 512 s) := by rw [AtKey, hkey, ticked_phase, add_ofNat_eq_self_iff]
    have hevent : PushEvent (cols 512) (ticked cols 512 s) :=
      ⟨hfsm, hAtKey, (lowSample_ticked_iff cols s (by decide)).mpr (hlow 32 (by decide)), by rw [hcnt]⟩
    rw [ticked_succ cols 512, tick_fsm, tick_keyCode, tick_pushConfirmed, tick_relCnt, scan_of_pushEvent hevent]
    exact ⟨rfl, hkey, rfl, rfl⟩

/-- A re-sample that is not low, `n` re-samples after the first observation, leads back to IDLE (R155). -/
theorem ticked_abandons (cols : Nat → Lines) {s : State} {n : Nat} (hidle : s.fsm = .idle) (hn : n ≤ 31)
    (hlow : ∀ j, j ≤ n → (cols (16 * j)).getLsbD (s.phase.toNat % 4) = false)
    (hhigh : (cols (16 * (n + 1))).getLsbD (s.phase.toNat % 4) = true) :
    (ticked cols (16 * (n + 1) + 1) s).fsm = .idle ∧ (ticked cols (16 * (n + 1) + 1) s).detCnt = 0 ∧
      (ticked cols (16 * (n + 1) + 1) s).keyCode = s.phase ∧
      (ticked cols (16 * (n + 1) + 1) s).pushConfirmed = s.pushConfirmed := by
  obtain ⟨hfsm, hkey, -, hflag⟩ :=
    ticked_detecting cols hidle (n := 16 * (n + 1)) (by omega) (by omega) fun j hj => hlow j (by omega)
  have hback : 16 * (n + 1) % 16 = 0 := Nat.mul_mod_right 16 (n + 1)
  have hAtKey : AtKey (ticked cols (16 * (n + 1)) s) := by
    rw [AtKey, hkey, ticked_phase, add_ofNat_eq_self_iff, hback]
  have hsample : ¬ LowSample (cols (16 * (n + 1))) (ticked cols (16 * (n + 1)) s) := by
    rw [lowSample_ticked_iff cols s hback, hhigh]
    decide
  rw [ticked_succ, tick_fsm, tick_detCnt, tick_keyCode, tick_pushConfirmed, scan_of_abandon hfsm hAtKey hsample]
  exact ⟨rfl, rfl, hkey, hflag⟩

/-- Settles O44: IDLE, then DETECTING up to the re-sample that is not low, which abandons. -/
theorem fewerThan32LowResamplesNeverConfirm : Obligations.FewerThan32LowResamplesNeverConfirm := by
  intro cols s n hidle hn hlow hhigh
  obtain ⟨hback, hcnt, hkey, hkept⟩ := ticked_abandons cols hidle hn hlow hhigh
  refine ⟨fun m hm => ⟨_, ticks_eq_ticked cols m s, ?_⟩, ⟨_, ticks_eq_ticked cols _ s, hback, hcnt, hkey⟩⟩
  obtain rfl | ⟨h1, hbefore⟩ | rfl : m = 0 ∨ (1 ≤ m ∧ m ≤ 16 * (n + 1)) ∨ m = 16 * (n + 1) + 1 := by omega
  · simp [hidle]
  · obtain ⟨hfsm, -, -, hflag⟩ := ticked_detecting cols hidle h1 (by omega) fun j hj => hlow j (by omega)
    exact ⟨hflag, by simp [hfsm]⟩
  · exact ⟨hkept, by simp [hback]⟩

/-! ### Counting a release -/

/-- The first TICK of a run that then counts the release: it ends in PUSHED for the position it samples, with the count at 32. -/
theorem tick_starts_release_count {c : Lines} {s : State}
    (h : PushEvent c s ∨ (s.fsm = .pushed ∧ AtKey s ∧ LowSample c s)) :
    AtKey s ∧ (tick c s).fsm = .pushed ∧ (tick c s).keyCode = s.keyCode ∧ (tick c s).relCnt = 32 ∧
      (tick c s).releaseConfirmed = s.releaseConfirmed := by
  rw [tick_fsm, tick_keyCode, tick_relCnt, tick_releaseConfirmed]
  obtain hevent | ⟨hfsm, hkey, hlow⟩ := h
  · have ⟨_, hkey, _⟩ := hevent
    rw [scan_of_pushEvent hevent]
    exact ⟨hkey, rfl, rfl, rfl, rfl⟩
  · rw [scan_of_reloadRelease hfsm hkey hlow]
    exact ⟨hkey, hfsm, rfl, rfl, rfl⟩

/-- The run from there on, while the re-samples of the key are not low: after `n` TICKs the count has gone down by the re-samples among
the `n - 1` TICKs since (R161). -/
theorem ticked_releasing (cols : Nat → Lines) {s : State}
    (hstart : PushEvent (cols 0) s ∨ (s.fsm = .pushed ∧ AtKey s ∧ LowSample (cols 0) s)) {n : Nat} (h1 : 1 ≤ n) (hn : n ≤ 512)
    (hhigh : ∀ j, 1 ≤ j → 16 * j < n → (cols (16 * j)).getLsbD (s.phase.toNat % 4) = true) :
    (ticked cols n s).fsm = .pushed ∧ (ticked cols n s).keyCode = s.keyCode ∧
      (ticked cols n s).relCnt.toNat = 32 - (n - 1) / 16 ∧ (ticked cols n s).releaseConfirmed = s.releaseConfirmed := by
  obtain ⟨hphase, hfsm, hkey, hcnt, hflag⟩ := tick_starts_release_count hstart
  induction n, h1 using Nat.le_induction with
  | base =>
    rw [ticked_succ, ticked_zero]
    exact ⟨hfsm, hkey, congrArg BitVec.toNat hcnt, hflag⟩
  | succ n h1 ih =>
    obtain ⟨hfsm, hkey, hcnt, hflag⟩ := ih (by omega) fun j hj0 hj => hhigh j hj0 (by omega)
    have hAtKey : AtKey (ticked cols n s) ↔ n % 16 = 0 := by
      rw [AtKey, hkey, ← hphase, ticked_phase, add_ofNat_eq_self_iff]
    rw [ticked_succ, tick_fsm, tick_keyCode, tick_relCnt, tick_releaseConfirmed]
    by_cases hback : n % 16 = 0
    · have hsample : ¬ LowSample (cols n) (ticked cols n s) := by
        rw [lowSample_ticked_iff cols s hback, Bool.not_eq_false, ← hhigh (n / 16) (by omega) (by omega),
          Nat.mul_div_cancel' (by omega)]
      have hcount : 2 ≤ (ticked cols n s).relCnt.toNat := by omega
      rw [scan_of_countRelease hfsm (hAtKey.mpr hback) hsample hcount, countRelease_relCnt_toNat hcount]
      exact ⟨hfsm, hkey, by omega, hflag⟩
    · rw [scan_of_uncounted (.inr (.inr ⟨hfsm, mt hAtKey.mp hback⟩))]
      exact ⟨hfsm, hkey, by omega, hflag⟩

/-- Settles O45: after 512 TICKs the count is 1, so the next re-sample that is not low is the release event. -/
theorem releaseComesAtThe32ndHighResample : Obligations.ReleaseComesAtThe32ndHighResample := by
  intro cols s hstart hhigh
  refine ⟨fun n h1 hn => ⟨_, ticks_eq_ticked cols n s, ?_⟩, ⟨_, ticks_eq_ticked cols 513 s, ?_⟩⟩
  · obtain ⟨hfsm, hkey, -, hflag⟩ := ticked_releasing cols hstart h1 hn fun j hj0 hj => hhigh j hj0 (by omega)
    exact ⟨hfsm, hkey, hflag⟩
  · obtain ⟨hfsm, hkey, hcnt, -⟩ :=
      ticked_releasing cols hstart (n := 512) (by decide) (Nat.le_refl _) fun j hj0 hj => hhigh j hj0 (by omega)
    obtain ⟨hphase, -⟩ := tick_starts_release_count hstart
    have hAtKey : AtKey (ticked cols 512 s) := by rw [AtKey, hkey, ← hphase, ticked_phase, add_ofNat_eq_self_iff]
    have hsample : ¬ LowSample (cols 512) (ticked cols 512 s) := by
      rw [lowSample_ticked_iff cols s (by decide), hhigh 32 (by decide) (by decide)]
      decide
    have hevent : ReleaseEvent (cols 512) (ticked cols 512 s) := ⟨hfsm, hAtKey, hsample, by rw [hcnt]⟩
    rw [ticked_succ cols 512, tick_fsm, tick_detCnt, tick_relCnt, tick_keyCode, tick_releaseConfirmed,
      scan_of_releaseEvent hevent]
    exact ⟨rfl, rfl, rfl, hkey, rfl⟩

/-! ### The buzzer over a push -/

/-- While the run stays in PUSHED the key is kept and every TICK toggles the buzzer (R180). -/
theorem ticked_pushed (cols : Nat → Lines) {s : State} (n : Nat) (hpushed : ∀ m, m ≤ n → (ticked cols m s).fsm = .pushed) :
    (ticked cols n s).keyCode = s.keyCode ∧ (ticked cols n s).buzzer = xor s.buzzer (decide (n % 2 = 1)) := by
  induction n with
  | zero => simp
  | succ n ih =>
    obtain ⟨hkey, hbuzzer⟩ := ih fun m hm => hpushed m (by omega)
    have hturn : decide ((n + 1) % 2 = 1) = !decide (n % 2 = 1) := by
      rw [← decide_not, decide_eq_decide]
      omega
    refine ⟨?_, ?_⟩
    · rw [ticked_succ, tick_keyCode, scan_keyCode_of_ne_idle _ (by simp [hpushed n]), hkey]
    · rw [ticked_succ, tick_buzzer_eq_xor, ← ticked_succ, decide_eq_true (hpushed (n + 1) (Nat.le_refl _)), hbuzzer, hturn,
        Bool.xor_true, Bool.xor_not]

/-- Settles O50: the TICK that leaves PUSHED is the release event, so it samples the key, and BUZZ sees IDLE. -/
theorem theBuzzerTogglesFromPushToRelease : Obligations.TheBuzzerTogglesFromPushToRelease := by
  intro cols s n hstay hleave
  have hpushed : ∀ m, m ≤ n → (ticked cols m s).fsm = .pushed := fun m hm =>
    (exists_ticks_iff cols m s (·.fsm = .pushed)).mp (hstay m hm)
  have hleft := (exists_ticks_iff cols (n + 1) s (·.fsm ≠ .pushed)).mp hleave
  have hrun := fun m (hm : m ≤ n) => ticked_pushed cols m fun k hk => hpushed k (hk.trans hm)
  obtain ⟨hkey, hbuzzer⟩ := hrun n (Nat.le_refl n)
  have hevent : ReleaseEvent (cols n) (ticked cols n s) := by
    rw [ticked_succ, tick_fsm, ne_eq, scan_fsm_eq_pushed_iff] at hleft
    exact by_contra fun hno => hleft (.inr ⟨hpushed n (Nat.le_refl n), hno⟩)
  have ⟨_, hAtKey, _⟩ := hevent
  refine ⟨?_, fun m hm => ⟨_, ticks_eq_ticked cols m s, (hrun m hm).2⟩, ⟨_, ticks_eq_ticked cols (n + 1) s, ?_⟩⟩
  · rw [← add_ofNat_eq_iff, ← ticked_phase cols n s, hAtKey, hkey]
  · rw [ticked_succ, tick_buzzer, tick_fsm, tick_releaseConfirmed, scan_of_releaseEvent hevent]
    exact ⟨rfl, rfl, hbuzzer⟩

end Sys2Proof.Machine
end

section
/-! PROOFS. The events of a run without RESET: they alternate (spec/43_keypad_scanner_debounce.md R163, R164), and the TICKs that lie
between them (spec/70_reset_and_hazards.md R234, R236). -/

namespace Sys2Proof.Machine

/-! ### The event of one word -/

/-- The event `e` happens in a TICK with these column lines (R162). -/
def Happens (e : Event) (c : Lines) (s : State) : Prop :=
  match e with
  | .push => PushEvent c s
  | .release => ReleaseEvent c s

/-- What is reported of a word happens in its TICK. -/
theorem happens_of_mem_eventOf {e : Event} {w : Opw} {s : State} (h : e ∈ eventOf w s) :
    TicksIn w ∧ Happens e (fieldColN w) s := by
  unfold eventOf at h
  split at h
  case isTrue hpush =>
    obtain rfl := List.mem_singleton.mp h
    exact hpush
  case isFalse =>
    split at h
    case isTrue hrelease =>
      obtain rfl := List.mem_singleton.mp h
      exact hrelease
    case isFalse => exact absurd h List.not_mem_nil

/-- An event of a word enters or leaves PUSHED, and a word without one does neither (R162). -/
theorem eventOf_cases {w : Opw} (hr : fieldRst w = false) (s : State) :
    (eventOf w s = [] ∧ ((strobed w s).fsm = .pushed ↔ s.fsm = .pushed)) ∨
    (eventOf w s = [.push] ∧ s.fsm ≠ .pushed ∧ (strobed w s).fsm = .pushed) ∨
    (eventOf w s = [.release] ∧ s.fsm = .pushed ∧ (strobed w s).fsm ≠ .pushed) := by
  obtain ⟨hhost, htick⟩ := strobed_scanner w s
  cases ht : fieldTick w with
  | false =>
    obtain ⟨-, hfsm, -⟩ := hhost ht
    have hno : ¬ TicksIn w := fun h => absurd (ht.symm.trans h.2) (by decide)
    exact .inl ⟨by rw [eventOf, if_neg (mt And.left hno), if_neg (mt And.left hno)], by rw [hfsm]⟩
  | true =>
    obtain ⟨-, hfsm, -⟩ := htick ht
    have hTick : TicksIn w := ⟨hr, ht⟩
    rw [hfsm, ne_eq, ne_eq, scan_fsm_eq_pushed_iff]
    by_cases hpush : PushEvent (fieldColN w) s
    · have hfsm : s.fsm ≠ .pushed := by simp [hpush.1]
      exact .inr (.inl ⟨if_pos ⟨hTick, hpush⟩, hfsm, .inl hpush⟩)
    · by_cases hrelease : ReleaseEvent (fieldColN w) s
      · exact .inr (.inr ⟨by rw [eventOf, if_neg (mt And.right hpush), if_pos ⟨hTick, hrelease⟩], hrelease.1,
          not_or.mpr ⟨hpush, fun h => h.2 hrelease⟩⟩)
      · exact .inl ⟨by rw [eventOf, if_neg (mt And.right hpush), if_neg (mt And.right hrelease)],
          (or_iff_right hpush).trans (and_iff_left hrelease)⟩

theorem events_cons {w : Opw} (hr : fieldRst w = false) (ws : List Opw) (s : State) :
    events (w :: ws) s = eventOf w s ++ events ws (strobed w s) := by
  rw [events, stepWord_strobed hr]

/-- The one event that can come next. -/
def nextEvent (s : State) : Event := if s.fsm = .pushed then .release else .push

theorem alternates_events (ws : List Opw) (s : State) (hNoReset : NoReset ws) : Alternates (nextEvent s) (events ws s) := by
  induction ws generalizing s with
  | nil => trivial
  | cons w ws ih =>
    obtain ⟨hr, hrest⟩ := List.forall_mem_cons.mp hNoReset
    have htail := ih (strobed w s) hrest
    rw [events_cons hr]
    obtain ⟨hevent, hfsm⟩ | ⟨hevent, hfsm, hfsm'⟩ | ⟨hevent, hfsm, hfsm'⟩ := eventOf_cases hr s
    · have hnext : nextEvent (strobed w s) = nextEvent s := by simp only [nextEvent, hfsm]
      rwa [hevent, List.nil_append, ← hnext]
    · rw [nextEvent, if_pos hfsm'] at htail
      rw [hevent, nextEvent, if_neg hfsm]
      exact ⟨rfl, htail⟩
    · rw [nextEvent, if_neg hfsm'] at htail
      rw [hevent, nextEvent, if_pos hfsm]
      exact ⟨rfl, htail⟩

/-- Settles O46: whether the run starts in PUSHED decides which event comes first. -/
theorem pushAndReleaseEventsAlternate : Obligations.PushAndReleaseEventsAlternate := by
  intro ws s hNoReset
  have h := alternates_events ws s hNoReset
  exact ⟨fun hfsm => by rwa [nextEvent, if_neg hfsm] at h, fun hfsm => by rwa [nextEvent, if_pos hfsm] at h⟩

/-! ### While a key is held -/

/-- Outside IDLE no word but RESET writes `key_code`. -/
theorem strobed_keyCode_of_ne_idle (w : Opw) {s : State} (h : s.fsm ≠ .idle) : (strobed w s).keyCode = s.keyCode := by
  obtain ⟨hhost, htick⟩ := strobed_scanner w s
  cases ht : fieldTick w with
  | false =>
    obtain ⟨-, -, -, -, hkey⟩ := hhost ht
    exact hkey
  | true =>
    obtain ⟨-, -, -, -, hkey⟩ := htick ht
    rw [hkey, scan_keyCode_of_ne_idle _ h]

/-- A run in PUSHED without an event stays there, with the same key (R163). -/
theorem runWords_pushed_of_no_event (ws : List Opw) {s t : State} (hNoReset : NoReset ws) (hfsm : s.fsm = .pushed)
    (hnone : events ws s = []) (hrun : runWords ws s = .next t) : t.fsm = .pushed ∧ t.keyCode = s.keyCode := by
  induction ws generalizing s with
  | nil =>
    cases hrun
    exact ⟨hfsm, rfl⟩
  | cons w ws ih =>
    obtain ⟨hr, hrest⟩ := List.forall_mem_cons.mp hNoReset
    rw [events_cons hr, List.append_eq_nil_iff] at hnone
    rw [runWords_cons, stepWord_strobed hr, andThen_next] at hrun
    obtain ⟨hnow, hlater⟩ := hnone
    obtain ⟨-, hstay⟩ | ⟨hevent, -⟩ | ⟨hevent, -⟩ := eventOf_cases hr s
    · obtain ⟨hend, hkey⟩ := ih hrest (hstay.mpr hfsm) hlater hrun
      exact ⟨hend, hkey.trans (strobed_keyCode_of_ne_idle w (by simp [hfsm]))⟩
    · simp [hnow] at hevent
    · simp [hnow] at hevent

theorem runWords_total (ws : List Opw) (s : State) : ∃ t, runWords ws s = .next t := by
  obtain ⟨t, ht, -⟩ := runWords_keeps (fun _ => True) (fun _ _ _ _ _ => trivial) ws s trivial
  exact ⟨t, ht⟩

/-- Settles O47: no event leaves PUSHED for the key, and the first one is what alternation makes it. -/
theorem aHeldKeyMasksTheOthers : Obligations.AHeldKeyMasksTheOthers := by
  intro ws s hNoReset hfsm
  obtain ⟨t, ht⟩ := runWords_total ws s
  refine ⟨t, ht, fun hnone => runWords_pushed_of_no_event ws hNoReset hfsm hnone ht, fun e rest hevents => ?_⟩
  have h := alternates_events ws s hNoReset
  rw [hevents, nextEvent, if_pos hfsm] at h
  exact h.1

/-! ### The TICKs between events -/

/-- From a phase on, the TICKs until a count has gone down to 0 by re-samples of the key, if each of them counts. -/
def ticksToZero (key phase : Position) (count : Nat) : Nat := (key - phase).toNat + 16 * (count - 1) + 1

/-- A TICK at another position comes one nearer. -/
theorem ticksToZero_other {k p : Position} (h : p ≠ k) (n : Nat) : ticksToZero k p n = ticksToZero k (p + 1) n + 1 := by
  have hdistance : (k - p).toNat = (k - (p + 1)).toNat + 1 := by bv_omega
  rw [ticksToZero, ticksToZero, hdistance]
  omega

theorem ticksToZero_atKey (k : Position) (n : Nat) : ticksToZero k k n = 16 * (n - 1) + 1 := by
  simp [ticksToZero]

/-- One position past the key the next re-sample is 15 TICKs off. -/
theorem ticksToZero_pastKey (k : Position) (n : Nat) : ticksToZero k (k + 1) n = 16 * (n - 1) + 16 := by
  have hdistance : (k - (k + 1)).toNat = 15 := by bv_omega
  rw [ticksToZero, hdistance]
  omega

/-- At least so many TICKs after a push event comes the event `e`; 0 for the push event itself. -/
def ticksFromPush (e : Event) : Nat :=
  match e with
  | .push => 0
  | .release => 512

/-- At least so many TICKs after a release event comes the event `e`; 0 for the release event itself. -/
def ticksFromRelease (e : Event) : Nat :=
  match e with
  | .push => 513
  | .release => 0

theorem ticksFromPush_le (e : Event) : ticksFromPush e ≤ ticksFromRelease e + 512 := by cases e <;> decide
theorem ticksFromRelease_le (e : Event) : ticksFromRelease e ≤ ticksFromPush e + 513 := by cases e <;> decide

/-- At least so many TICKs a run performs up to its next event `e`, that event's TICK included. -/
def ticksTo (e : Event) (s : State) : Nat :=
  match s.fsm with
  | .idle => 513 + ticksFromPush e
  | .detecting => ticksToZero s.keyCode s.phase s.detCnt.toNat + ticksFromPush e
  | .pushed => ticksToZero s.keyCode s.phase s.relCnt.toNat + ticksFromRelease e

theorem ticksTo_idle {s : State} (h : s.fsm = .idle) (e : Event) : ticksTo e s = 513 + ticksFromPush e := by
  simp only [ticksTo, h]

theorem ticksTo_detecting {s : State} (h : s.fsm = .detecting) (e : Event) :
    ticksTo e s = ticksToZero s.keyCode s.phase s.detCnt.toNat + ticksFromPush e := by
  simp only [ticksTo, h]

theorem ticksTo_pushed {s : State} (h : s.fsm = .pushed) (e : Event) :
    ticksTo e s = ticksToZero s.keyCode s.phase s.relCnt.toNat + ticksFromRelease e := by
  simp only [ticksTo, h]

/-- The TICK of an event is the last one to it. -/
theorem ticksTo_of_happens {e : Event} {c : Lines} {s : State} (h : Happens e c s) : ticksTo e s = 1 := by
  cases e with
  | push =>
    obtain ⟨hfsm, hkey, -, hcnt⟩ : PushEvent c s := h
    rw [ticksTo_detecting hfsm, hkey, ticksToZero_atKey, Nat.sub_eq_zero_of_le hcnt]
    rfl
  | release =>
    obtain ⟨hfsm, hkey, -, hcnt⟩ : ReleaseEvent c s := h
    rw [ticksTo_pushed hfsm, hkey, ticksToZero_atKey, Nat.sub_eq_zero_of_le hcnt]
    rfl

/-- RENDER and BUZZ leave what this reads. -/
theorem ticksTo_tick (e : Event) (c : Lines) (s : State) : ticksTo e (tick c s) = ticksTo e (advance (scan c s)) := by
  simp [ticksTo]

/-- From the end of a push event on (R156). -/
theorem ticksTo_advance_pushEvent (e : Event) {s : State} (hkey : AtKey s) :
    ticksTo e (advance (pushEvent s)) = 512 + ticksFromRelease e := by
  rw [ticksTo_pushed rfl, advance_keyCode, advance_phase, advance_relCnt, nextPhase_eq, pushEvent_keyCode, pushEvent_phase,
    pushEvent_relCnt, hkey, ticksToZero_pastKey]
  rfl

/-- From a first observation on (R153). -/
theorem ticksTo_advance_firstObservation (e : Event) (s : State) :
    ticksTo e (advance (firstObservation s)) = 512 + ticksFromPush e := by
  rw [ticksTo_detecting rfl, advance_keyCode, advance_phase, advance_detCnt, nextPhase_eq, firstObservation_keyCode,
    firstObservation_phase, firstObservation_detCnt, ticksToZero_pastKey]
  rfl

/-- At another position the distance goes down by 1 (R154, R158). -/
theorem ticksTo_advance_other (e : Event) {s : State} (hfsm : s.fsm ≠ .idle) (hkey : ¬ AtKey s) :
    ticksTo e s = ticksTo e (advance s) + 1 := by
  cases hf : s.fsm with
  | idle => exact absurd hf hfsm
  | detecting =>
    rw [ticksTo_detecting hf, ticksTo_detecting (by rw [advance_fsm, hf]), advance_keyCode, advance_phase, advance_detCnt,
      nextPhase_eq, ticksToZero_other hkey]
    omega
  | pushed =>
    rw [ticksTo_pushed hf, ticksTo_pushed (by rw [advance_fsm, hf]), advance_keyCode, advance_phase, advance_relCnt,
      nextPhase_eq, ticksToZero_other hkey]
    omega

/-- At the key a count goes down by 1 while the distance goes up from 0 to 15 (R157, R161). -/
theorem ticksTo_advance_countDetect (e : Event) {s : State} (hfsm : s.fsm = .detecting) (hkey : AtKey s)
    (hcnt : 2 ≤ s.detCnt.toNat) : ticksTo e s = ticksTo e (advance (countDetect s)) + 1 := by
  rw [ticksTo_detecting hfsm, ticksTo_detecting (by rw [advance_fsm, countDetect_fsm, hfsm]), advance_keyCode, advance_phase,
    advance_detCnt, nextPhase_eq, countDetect_keyCode, countDetect_phase, countDetect_detCnt_toNat hcnt, hkey,
    ticksToZero_atKey, ticksToZero_pastKey]
  omega

theorem ticksTo_advance_countRelease (e : Event) {s : State} (hfsm : s.fsm = .pushed) (hkey : AtKey s)
    (hcnt : 2 ≤ s.relCnt.toNat) : ticksTo e s = ticksTo e (advance (countRelease s)) + 1 := by
  rw [ticksTo_pushed hfsm, ticksTo_pushed (by rw [advance_fsm, countRelease_fsm, hfsm]), advance_keyCode, advance_phase,
    advance_relCnt, nextPhase_eq, countRelease_keyCode, countRelease_phase, countRelease_relCnt_toNat hcnt, hkey,
    ticksToZero_atKey, ticksToZero_pastKey]
  omega

theorem ticksTo_advance_reloadRelease (e : Event) {s : State} (hfsm : s.fsm = .pushed) (hkey : AtKey s) :
    ticksTo e (advance (reloadRelease s)) = 512 + ticksFromRelease e := by
  rw [ticksTo_pushed (by rw [advance_fsm, reloadRelease_fsm, hfsm]), advance_keyCode, advance_phase, advance_relCnt,
    nextPhase_eq, reloadRelease_keyCode, reloadRelease_phase, reloadRelease_relCnt, hkey, ticksToZero_pastKey]
  rfl

/-- A TICK comes at most one nearer to either event: no arm of SCAN shortens the way by more. -/
theorem ticksTo_le_tick (e : Event) (c : Lines) {s : State} (hs : DebounceInv s) :
    ticksTo e s ≤ ticksTo e (tick c s) + 1 := by
  obtain ⟨-, hdetecting, hpushed⟩ := hs
  have hfromPush := ticksFromPush_le e
  have hfromRelease := ticksFromRelease_le e
  rw [ticksTo_tick]
  obtain ⟨hfsm, -, hscan⟩ | ⟨hfsm, -, hscan⟩ | ⟨hfsm, hkey, hscan⟩ | ⟨hfsm, hkey, -, hscan⟩ | ⟨hfsm, hkey, -, hcnt, hscan⟩ |
    ⟨hfsm, hkey, -, hcnt, hscan⟩ | ⟨hfsm, hkey, -, hscan⟩ | ⟨hfsm, hkey, -, hcnt, hscan⟩ |
    ⟨hfsm, hkey, -, hcnt, hscan⟩ := scan_cases c s <;> rw [hscan]
  · rw [ticksTo_idle hfsm, ticksTo_idle (by rw [advance_fsm, hfsm])]
    omega
  · rw [ticksTo_idle hfsm, ticksTo_advance_firstObservation]
    omega
  · rw [ticksTo_advance_other e hfsm hkey]
  · obtain ⟨-, hmax, -⟩ := hdetecting hfsm
    rw [ticksTo_detecting hfsm, hkey, ticksToZero_atKey, ticksTo_idle (by rw [advance_fsm, abandon_fsm])]
    omega
  · rw [← toNat_le_one_iff] at hcnt
    rw [ticksTo_detecting hfsm, hkey, ticksToZero_atKey, ticksTo_advance_pushEvent e hkey]
    omega
  · rw [← toNat_le_one_iff] at hcnt
    rw [ticksTo_advance_countDetect e hfsm hkey (by omega)]
  · obtain ⟨-, -, hmax⟩ := hpushed hfsm
    rw [ticksTo_advance_reloadRelease e hfsm hkey, ticksTo_pushed hfsm, hkey, ticksToZero_atKey]
    omega
  · rw [← toNat_le_one_iff] at hcnt
    rw [ticksTo_pushed hfsm, hkey, ticksToZero_atKey, ticksTo_idle (by rw [advance_fsm, releaseEvent_fsm])]
    omega
  · rw [← toNat_le_one_iff] at hcnt
    rw [ticksTo_advance_countRelease e hfsm hkey (by omega)]

/-- So does a word: one nearer by its TICK, none without. -/
theorem ticksTo_le_strobed (e : Event) {w : Opw} (hr : fieldRst w = false) {s : State} (hs : DebounceInv s) :
    ticksTo e s ≤ ticksTo e (strobed w s) + if TicksIn w then 1 else 0 := by
  rw [strobed_eq]
  have hTick : TicksIn w ↔ fieldTick w = true := and_iff_right hr
  by_cases ht : fieldTick w = true
  · rw [if_pos ht, if_pos (hTick.mpr ht)]
    exact ticksTo_le_tick e _ (s := hostStrobed w s) hs
  · rw [if_neg ht, if_neg (mt hTick.mp ht)]
    exact Nat.le_refl _

theorem debounceInv_strobed {w : Opw} (hr : fieldRst w = false) {s : State} (hs : DebounceInv s) :
    DebounceInv (strobed w s) :=
  stepInvariant_debounceInv.stepWord w hs (stepWord_strobed hr s)

/-- A run without RESET that performs fewer TICKs than the way to an event has does not meet it. -/
theorem not_mem_events (e : Event) (ws : List Opw) {s : State} (hs : DebounceInv s) (hNoReset : NoReset ws)
    (hcount : tickCount ws < ticksTo e s) : e ∉ events ws s := by
  induction ws generalizing s with
  | nil => exact List.not_mem_nil
  | cons w ws ih =>
    obtain ⟨hr, hrest⟩ := List.forall_mem_cons.mp hNoReset
    rw [tickCount_cons] at hcount
    have hnearer := ticksTo_le_strobed e hr hs
    rw [events_cons hr, List.mem_append, not_or]
    refine ⟨fun hmem => ?_, ih (debounceInv_strobed hr hs) hrest (by omega)⟩
    obtain ⟨hTick, hhappens⟩ := happens_of_mem_eventOf hmem
    rw [if_pos hTick, ticksTo_of_happens hhappens] at hcount
    omega

/-- The word of an event performs its TICK last. -/
theorem strobed_of_ticksIn {w : Opw} (hTick : TicksIn w) (s : State) :
    strobed w s = tick (fieldColN w) (hostStrobed w s) := by
  rw [strobed_eq, if_pos hTick.2]

/-- The word of a push event leaves the counters as R156 has them, and so many TICKs to each event. -/
theorem strobed_of_pushEvent {w : Opw} {s : State} (hTick : TicksIn w) (h : PushEvent (fieldColN w) s) :
    DebounceInv (strobed w s) ∧ (strobed w s).fsm = .pushed ∧ (strobed w s).keyCode = s.keyCode ∧
      ∀ e, ticksTo e (strobed w s) = 512 + ticksFromRelease e := by
  have h' := (pushEvent_hostStrobed _ w s).mpr h
  have ⟨_, hkey, _⟩ := h'
  rw [strobed_of_ticksIn hTick, DebounceInv, tick_fsm, tick_detCnt, tick_relCnt, tick_keyCode, scan_of_pushEvent h']
  refine ⟨by simp [Config.releaseReload], rfl, rfl, fun e => ?_⟩
  rw [ticksTo_tick, scan_of_pushEvent h', ticksTo_advance_pushEvent e hkey]

/-- The word of a release event leaves the counters as R160 has them, and so many TICKs to each event. -/
theorem strobed_of_releaseEvent {w : Opw} {s : State} (hTick : TicksIn w) (h : ReleaseEvent (fieldColN w) s) :
    DebounceInv (strobed w s) ∧ ∀ e, ticksTo e (strobed w s) = 513 + ticksFromPush e := by
  have h' := (releaseEvent_hostStrobed _ w s).mpr h
  rw [strobed_of_ticksIn hTick, DebounceInv, tick_fsm, tick_detCnt, tick_relCnt, scan_of_releaseEvent h']
  refine ⟨by simp, fun e => ?_⟩
  rw [ticksTo_idle (by rw [tick_fsm, scan_of_releaseEvent h', releaseEvent_fsm])]

/-- Settles O49: the three windows end where the way to the event begins to be run out. -/
theorem eventsOfOneKindAre1025TicksApart : Obligations.EventsOfOneKindAre1025TicksApart := by
  intro w ws s t hTick hNoReset hstep
  rw [stepWord_strobed hTick.1] at hstep
  cases hstep
  refine ⟨fun hevent hcount => ?_, fun hevent hcount => ?_, fun hevent hcount => ?_⟩
  · obtain ⟨hs, -, -, hticks⟩ := strobed_of_pushEvent hTick hevent
    exact not_mem_events .push ws hs hNoReset (by rw [hticks, ticksFromRelease]; omega)
  · obtain ⟨hs, hticks⟩ := strobed_of_releaseEvent hTick hevent
    exact not_mem_events .release ws hs hNoReset (by rw [hticks, ticksFromPush]; omega)
  · obtain ⟨hs, hticks⟩ := strobed_of_releaseEvent hTick hevent
    exact not_mem_events .push ws hs hNoReset (by rw [hticks, ticksFromPush]; omega)

/-- A run from PUSHED that performs no more TICKs than the way to the release event has keeps `key_code`: it stays in PUSHED until that
event at the earliest, and after it no TICK is left for a first observation. -/
theorem runWords_keeps_keyCode (ws : List Opw) {s : State} (hs : DebounceInv s) (hfsm : s.fsm = .pushed)
    (hNoReset : NoReset ws) (hcount : tickCount ws ≤ ticksTo .release s) :
    ∃ t, runWords ws s = .next t ∧ t.keyCode = s.keyCode := by
  induction ws generalizing s with
  | nil => exact ⟨s, rfl, rfl⟩
  | cons w ws ih =>
    obtain ⟨hr, hrest⟩ := List.forall_mem_cons.mp hNoReset
    rw [tickCount_cons] at hcount
    have hnearer := ticksTo_le_strobed .release hr hs
    have hkey : (strobed w s).keyCode = s.keyCode := strobed_keyCode_of_ne_idle w (by simp [hfsm])
    rw [runWords_cons, stepWord_strobed hr, andThen_next, ← hkey]
    obtain ⟨-, hstay⟩ | ⟨-, hno, -⟩ | ⟨hevent, -, -⟩ := eventOf_cases hr s
    · exact ih (debounceInv_strobed hr hs) (hstay.mpr hfsm) hrest (by omega)
    · exact absurd hfsm hno
    · obtain ⟨hTick, hhappens⟩ := happens_of_mem_eventOf (hevent ▸ List.mem_singleton_self Event.release)
      rw [if_pos hTick, ticksTo_of_happens hhappens] at hcount
      obtain ⟨t, ht, ⟨-, -, -, -, hheld, -⟩, -⟩ := withoutTicksTheBlockHolds ws (strobed w s) hrest (by omega)
      exact ⟨t, ht, hheld.symm⟩

/-- Settles O48: the push event leaves a way of 512 TICKs to the release event. -/
theorem keyCodeHoldsFor512TicksAfterThePush : Obligations.KeyCodeHoldsFor512TicksAfterThePush := by
  intro w ws s hTick hevent hNoReset hcount
  obtain ⟨hs, hfsm, hkey, hticks⟩ := strobed_of_pushEvent hTick hevent
  rw [runWords_cons, stepWord_strobed hTick.1, andThen_next, ← hkey]
  exact runWords_keeps_keyCode ws hs hfsm hNoReset (by rw [hticks, ticksFromRelease]; omega)

end Sys2Proof.Machine
end

section
/-! PROOFS. Keys on the ideal keypad (spec/70_reset_and_hazards.md R251, R252): a run of its TICKs as one over column lines, no key
closed, and one key held. -/

namespace Sys2Proof.Machine

/-! ### Runs beside the ideal keypad -/

theorem ticksAt_one (K : List Position) (s : State) :
    ticksAt K 1 s = .next (tick (idealColumns K s.phase) s) := rfl

/-- A run of TICKs goes on from where its first part ends. -/
theorem ticksAt_add (K : List Position) (m n : Nat) (s : State) :
    ticksAt K (m + n) s = andThen (ticksAt K m s) (ticksAt K n) := by
  induction m generalizing s with
  | zero => rw [Nat.zero_add, ticksAt, andThen_next]
  | succ m ih => rw [Nat.succ_add, ticksAt, ticksAt, exec_tick, andThen_next, andThen_next, ih]

/-- The lines of the TICK numbered `n` of a run that starts at phase `p`. -/
def keypadLines (K : List Position) (p : Position) (n : Nat) : Lines := idealColumns K (p + BitVec.ofNat 4 n)

theorem ticksAt_eq_ticks (K : List Position) (n : Nat) (s : State) :
    ticksAt K n s = ticks (keypadLines K s.phase) n s := by
  induction n with
  | zero => rfl
  | succ n ih =>
    rw [ticksAt_add, ih, ticks_eq_ticked, ticks_eq_ticked, andThen_next, ticksAt_one, ticked_phase, ticked_succ, keypadLines]

/-- While no closed key is sampled a run from IDLE stays there: SCAN and BUZZ do nothing (R152). -/
theorem ticksAt_no_key_sampled (K : List Position) {s : State} (hidle : s.fsm = .idle) (n : Nat)
    (hopen : ∀ j, j < n → s.phase + BitVec.ofNat 4 j ∉ K) :
    ∃ t, ticksAt K n s = .next t ∧ t.fsm = .idle ∧ t.phase = s.phase + BitVec.ofNat 4 n ∧ FlagsKept s t ∧
      t.buzzer = s.buzzer := by
  induction n with
  | zero => exact ⟨s, rfl, hidle, by simp, ⟨rfl, rfl⟩, rfl⟩
  | succ n ih =>
    obtain ⟨t, ht, hfsm, hphase, ⟨hpush, hrelease⟩, hbuzzer⟩ := ih fun j hj => hopen j (by omega)
    have hhigh : ¬ LowSample (idealColumns K t.phase) t := by
      rw [lowSample_iff, sampleLow_idealColumns_iff, hphase]
      exact hopen n (Nat.lt_succ_self n)
    refine ⟨tick (idealColumns K t.phase) t, by rw [ticksAt_add, ht, andThen_next, ticksAt_one], ?_⟩
    rw [tick_fsm, tick_phase, FlagsKept, tick_pushConfirmed, tick_releaseConfirmed, tick_buzzer,
      scan_of_uncounted (.inl ⟨hfsm, hhigh⟩), if_neg (by simp [hfsm]), hphase, BitVec.ofNat_add, ← BitVec.add_assoc]
    exact ⟨hfsm, rfl, ⟨hpush, hrelease⟩, hbuzzer⟩

/-- Settles O53: no position is a closed key, and after reset the flags and the buzzer are 0. -/
theorem noKeyNoEvent : Obligations.NoKeyNoEvent := by
  intro n
  obtain ⟨t, ht, hfsm, -, ⟨hpush, hrelease⟩, hbuzzer⟩ :=
    ticksAt_no_key_sampled [] reset_fsm n fun j _ => List.not_mem_nil
  exact ⟨t, ht, hfsm, hpush, hrelease, hbuzzer⟩

/-! ### One key held -/

/-- A held key reads low whenever the scan is at it, every 16 TICKs from it on. -/
theorem keypadLines_at_key (k : Position) (j : Nat) : (keypadLines [k] k (16 * j)).getLsbD (k.toNat % 4) = false := by
  have hback : k + BitVec.ofNat 4 (16 * j) = k := (add_ofNat_eq_self_iff k _).mpr (Nat.mul_mod_right 16 j)
  rw [keypadLines, hback, ← sampleLow_iff, sampleLow_idealColumns_iff]
  exact List.mem_singleton_self k

/-- In scanning order from `p` no position before `k` is `k`. -/
theorem add_ofNat_ne_of_lt_distance (p k : Position) {j : Nat} (hj : j < (k - p).toNat) : p + BitVec.ofNat 4 j ≠ k := by
  rw [ne_eq, add_ofNat_eq_iff]
  omega

/-- Settles O52: IDLE up to the key, by the distance to it; from there every re-sample is low, and O43 gives the rest. -/
theorem aHeldKeyIsConfirmed : Obligations.AHeldKeyIsConfirmed := by
  intro k s hidle
  obtain ⟨t, ht, hfsm, hphase, ⟨hpush, -⟩, -⟩ := ticksAt_no_key_sampled [k] hidle (k - s.phase).toNat fun j hj =>
    List.mem_singleton.not.mpr (add_ofNat_ne_of_lt_distance s.phase k hj)
  have hkey : t.phase = k := hphase.trans ((add_ofNat_eq_iff _ _ _).mpr (Nat.mod_eq_of_lt (k - s.phase).isLt))
  have hlow : ∀ j, j ≤ 32 → (keypadLines [k] k (16 * j)).getLsbD (t.phase.toNat % 4) = false := fun j _ =>
    hkey ▸ keypadLines_at_key k j
  have hgoOn : ∀ m, ticksAt [k] ((k - s.phase).toNat + m) s = ticks (keypadLines [k] k) m t := fun m => by
    rw [ticksAt_add, ht, andThen_next, ticksAt_eq_ticks, hkey]
  obtain ⟨hbefore, u, hu, hpushed, hcode, hflag, -⟩ :=
    pushComes512TicksAfterTheFirstObservation (keypadLines [k] k) t hfsm hlow
  obtain ⟨v, hv, hdetecting, -, hkept⟩ := hbefore 512 (by decide) (Nat.le_refl _)
  obtain ⟨-, hfirst, hload, -, hcandidate, -⟩ := tick_of_firstObservation hfsm (hlow 0 (by decide))
  exact ⟨(k - s.phase).toNat, (k - s.phase).isLt, ⟨t, ht, hfsm, hkey⟩,
    ⟨_, hgoOn 1, hfirst, hcandidate.trans hkey, hload⟩, ⟨v, (hgoOn 512).trans hv, hdetecting, hkept.trans hpush⟩,
    ⟨u, (hgoOn 513).trans hu, hpushed, hcode.trans hkey, hflag⟩⟩

end Sys2Proof.Machine
end
